-- ==== Sys2Proof/Word.lean ====
section
/-! DEFINITION. The word types of the NL412: what the manual treats as bits, and the numbers of the numbered things
(00_scope.md, "Units and quantities" and "Names of numbered things"). Gains, loudness values, deviations and levels are
quantities, not words: they are held as `Int` counts of their step, and become 16-bit words only in cells (R183). -/

namespace Sys2Proof

/-- One byte of a management cell. -/
abbrev Byte := BitVec 8
/-- A sample: a 24-bit two's complement value, 0 being silence (R1). -/
abbrev Sample := BitVec 24
/-- A service word (R1). -/
abbrev ServiceWord := BitVec 32
/-- A link time: a frame count modulo 2^32 (00_scope.md, "Units and quantities"). -/
abbrev LinkTime := BitVec 32
/-- The 64 samples of one frame, in slot order (R1). -/
abbrev Samples := Vector Sample 64
/-- A set of programmes: the 16-bit word in which bit n stands for programme n (R183). -/
abbrev ProgSet := BitVec 16
/-- Programme 0 to programme 15. -/
abbrev Prog := Fin 16
/-- Slot 0 to slot 63. -/
abbrev SlotNo := Fin 64
/-- Profile 0 to profile 7. -/
abbrev ProfileNo := Fin 8
/-- Law table 0 to law table 3. -/
abbrev TableNo := Fin 4

end Sys2Proof
end

