-- ==== Sys2Proof/Syntax.lean ====
section
/-! DEFINITION. The commands of the NL412: one constructor for each row of spec/opcode_table.json, in the table's order.
The table gives no row any bits. Two rows bring data from outside the part and carry it as their operand: a frame on the
inbound port (R1) and the levels of the straps at the release of RESET_N (R22). Every request row acts on the request cell
that the Cell Handler holds in hand after REQUEST_TAKE (R171), so its operands stand in that cell (R163). -/

namespace Sys2Proof

/-- One link frame: 64 samples, slot 0 to slot 63, and one service word (R1). -/
structure Frame where
  samples : Samples
  service : ServiceWord
  deriving DecidableEq, Repr, Inhabited

/-- The levels of the address straps ADDR3 to ADDR0 and of the settle straps SETTLE1, SETTLE0, as binary values (R22). -/
structure Straps where
  address : BitVec 4
  settle : BitVec 2
  deriving DecidableEq, Repr, Inhabited

/-- The commands: the part's steps, each whole and indivisible (95_what_each_step_holds.md). -/
inductive Instr where
  | pinReset (straps : Straps)
  | inboundFrame (frame : Frame)
  | windowCompletion
  | referenceFramePeriod
  | missingFrameTimeout
  | requestTake
  | unknownRequest
  | ident
  | read
  | profileWrite
  | lawLoad
  | lawSwap
  | slotMap
  | openProgramme
  | closeProgramme
  | cuePost
  | cueWithdraw
  | profileExchange
  | gainForce
  | gainRelease
  | probe
  | presenceRead
  | segmentReset
  | participate
  | conditionsRead
  | conditionsClear
  | noticeSet
  | restart
  | grant
  | retuneCompletion
  | rescaleCompletion
  | cueCompletion
  | profileExchangeCompletion
  | gainForceCompletion
  | gainReleaseCompletion
  | probeCompletion
  deriving DecidableEq, Repr, Inhabited

end Sys2Proof
end

