-- ==== Sys2Proof/Config.lean ====
section
/-! DEFINITION. What the manual leaves open, as constants WITHOUT a body: nothing in Lean can evaluate one or prove a
value of it, so a theorem about the machine holds whatever they are. Each is applied to what it may depend on: to the
operands, or to the counter `State.fresh`, which the machine advances whenever it draws a free value. -/

namespace Sys2Proof

/-- The loudness weighting filter of a slot: "a fixed function of the slot's inbound samples since it was last cleared,
and its coefficients are not given in this manual" (R47). The argument is those samples, newest first; the result is the
filtered sample, a 24-bit value. Assumption 1. -/
opaque Config.weighting : List Sample → Sample

/-- The service word of an outbound frame sent in SETTLING after the outbound superframe in progress has sent all sixteen
of its words and before the next inbound superframe start. R19 has the frame sent and gives no word for it. Assumption 2. -/
opaque Config.gapServiceWord : Nat → ServiceWord

/-- A byte of a READ record whose value the layouts of section 8.12 do not state in the case at hand (the entry of an empty
place of the directive queue, the programme of an idle engine, and the like). The arguments are the counter and the byte's
place. Assumption 3. -/
opaque Config.unstatedByte : Nat → Nat → Byte

/-- An order of the work of one block boundary and the choice of the outbound cell at the same superframe start: what is done
before the choice. Of a programme's work at the output side stage 6 comes after stage 1, so a programme counts in `guardFirst`
only where it stands in `stagedFirst` too. -/
structure BoundaryOrder where
  /-- The Law Store claims SWAP_DONE first (R83). -/
  swapFirst : Bool
  /-- The Cue Queue claims CUE_LATE at its due check first (R124). -/
  dueFirst : Bool
  /-- The programmes whose stage 1, which can claim CUE_LATE, is first (R145). -/
  stagedFirst : ProgSet
  /-- The programmes whose stage 6, which can move the pressure flag and claim GUARD_PRESSURE, is first (R154). -/
  guardFirst : ProgSet
  deriving DecidableEq, Repr, Inhabited

/-- The order that the work of a block boundary and the choice of the outbound cell at the same superframe start take. R13 does
not order the work and R190 allows each claim on either side of the choice. Asked only where the order can be seen.
Assumption 4. -/
opaque Config.boundaryOrder : Nat → BoundaryOrder

/-- Whether a cell that arrives for a full forward queue is taken before the sent report of that queue's head in the same
frame. R175 allows either order. Asked only where the order can be seen. Assumption 5. -/
opaque Config.arrivalFirst : Nat → Bool

/-- Whether in one CLOSE the Gain Stage's report of a staged list emptied from 2 entries reaches the Cue Queue before the closed
programme's entries are removed. R37 does not order the two, and R90 and R143 name a CLOSE among the events that can make an entry
eligible. Asked only where the order can be seen. Assumption 28. -/
opaque Config.closeReportFirst : Nat → Bool

end Sys2Proof
end

