-- ==== Sys2Proof/Machine/CellFormat.lean ====
section
/-! DEFINITION. How a management cell is made: its bytes, the layout of values in it, the check over it and the link address
it carries (R22, R163, R164, R183). The state after reset holds such a cell, the notice of the first outbound superframe (R23). -/

namespace Sys2Proof.Machine

/-! ### Cells -/

/-- A management cell: its 56 bytes, byte 0 first (R163). -/
abbrev Cell := List Byte

/-- A cell the part has made, before its origin, padding and check are put in (R163, R164, R173). -/
structure MadeCell where
  destination : Byte
  kind : Byte
  status : Byte
  tag : Byte
  target : Byte
  index : Byte
  count : Byte
  payload : List Byte
  deriving DecidableEq, Repr, Inhabited

/-! ### Layout of values (R183) -/

/-- A 16-bit word, most significant byte first. -/
def bytes16 (w : BitVec 16) : List Byte := [w.extractLsb' 8 8, w.extractLsb' 0 8]
/-- A 32-bit word, most significant byte first. -/
def bytes32 (w : BitVec 32) : List Byte :=
  [w.extractLsb' 24 8, w.extractLsb' 16 8, w.extractLsb' 8 8, w.extractLsb' 0 8]
/-- A signed 16-bit count. -/
def bytesInt (i : Int) : List Byte := bytes16 (BitVec.ofInt 16 i)
/-- A signed 16-bit count that may be absent, 0x8000 when it is. -/
def bytesOptInt : Option Int → List Byte
  | some i => bytesInt i
  | none => bytes16 0x8000
/-- An unsigned 16-bit count. -/
def bytesNat (n : Nat) : List Byte := bytes16 (BitVec.ofNat 16 n)
/-- An unsigned 8-bit count. -/
def byteNat (n : Nat) : Byte := BitVec.ofNat 8 n
/-- A mark: bit `i` of a byte, 1 when set. -/
def mark (b : Bool) (i : Nat) : Byte := if b then BitVec.twoPow 8 i else 0

/-! ### The check (R164) -/

/-- One bit of the CRC register's division by x^16 + x^12 + x^5 + 1. -/
def crcShift (r : BitVec 16) : BitVec 16 := if r.msb then (r <<< 1) ^^^ 0x1021 else r <<< 1

/-- The CRC register after one more byte, taken most significant bit first. -/
def crcByte (r : BitVec 16) (b : Byte) : BitVec 16 :=
  let r := r ^^^ (b ++ (0 : BitVec 8))
  crcShift (crcShift (crcShift (crcShift (crcShift (crcShift (crcShift (crcShift r)))))))

/-- The CRC over bytes, from a register of all ones and with no inversion of the result. -/
def crc (bytes : List Byte) : BitVec 16 := bytes.foldl crcByte 0xFFFF

/-- A made cell as the Link Transmitter copies it: with its origin, its padding of 0 and its check (R163, R164). -/
def MadeCell.toCell (m : MadeCell) (origin : Byte) : Cell :=
  let body := [m.destination, origin, m.kind, m.status, m.tag, m.target, m.index, m.count, byteNat m.payload.length] ++
    m.payload ++ List.replicate (45 - m.payload.length) 0
  body ++ bytes16 (crc body)

/-- The link address: 0x40 plus the value of the address straps (R22). -/
def linkAddress (s : Straps) : Byte := 0x40 + s.address.setWidth 8

end Sys2Proof.Machine
end

