-- ==== Sys2Proof/Machine/State.lean ====
section
/-! DEFINITION. The state of the NL412 as plain data, block by block (00_scope.md, "How the part is built"), with the queue
of waiting commands, the reasons a step could stop, and the state after reset. INVENTORY.md lists every field with the rule
that names it. Gains are `Int` counts of 0.01 dB; loudness values, differences, ceilings and levels are `Int` counts of 0.1. -/

namespace Sys2Proof.Machine

/-! ### Management cells (chapter 8) -/

/-- The status codes of section 8.12. -/
inductive Status where
  | done | partialDone | badKind | badIndex | badValue | badState | noRoom | queueFull | cueLate | cueFar | mismatch | busy
  | aborted
  deriving DecidableEq, Repr, Inhabited

/-- A response entry reserved for a request (R171): the fields of the request that its response echoes (R173). -/
structure Reply where
  origin : Byte
  kind : Byte
  tag : Byte
  target : Byte
  index : Byte
  count : Byte
  deriving DecidableEq, Repr, Inhabited

/-- The Cell Handler (chapter 8). `inHand` is the request that has been taken and whose taking has not ended (R171). -/
structure CellHandler where
  requests : List Cell
  inHand : Option Cell
  forward : List Cell
  responses : List MadeCell
  headerErrors : Nat
  crcErrors : Nat
  dropped : Nat
  deriving DecidableEq, Repr, Inhabited

/-! ### The link side (chapter 1) -/

/-- The lock state of the Link Receiver (section 1.2). -/
inductive LockState where
  | search | confirm | settling | running
  deriving DecidableEq, Repr, Inhabited

/-- What has been found of the header of the superframe in progress (R7, R9). -/
inductive HeaderFound where
  | unchecked | valid | error
  deriving DecidableEq, Repr, Inhabited

/-- The Link Receiver. `possible` is service word 0 of the possible frame 0 of SEARCH (R3); `words` are the service words
of the superframe in progress that have arrived, service word 0 first, so that its length counts the frames (R1); `time` is
T in CONFIRM and the assigned link time in SETTLING and RUNNING, and 0 in SEARCH, which holds none; `periods` counts the
reference periods since the last inbound frame and `timeouts` the header errors taken for them (R9). -/
structure Receiver where
  lock : LockState
  possible : Option ServiceWord
  words : List ServiceWord
  header : HeaderFound
  time : LinkTime
  expected : Option LinkTime
  slip : Option LinkTime
  settle : Option Nat
  errorRun : Nat
  periods : Nat
  timeouts : Nat
  hop : Byte
  deriving DecidableEq, Repr, Inhabited

/-- Where the cell of an outbound superframe came from (R21, R174). `gone` is a response whose source RESTART has emptied:
the sent report then finds nothing to remove. -/
inductive CellSource where
  | idle | notice | forward | response | gone
  deriving DecidableEq, Repr, Inhabited

/-- The outbound superframe in progress: the header and cell it was begun with, and how many of its frames have been sent
(R18 to R21). -/
structure OutSuperframe where
  time : LinkTime
  absent : Bool
  bypass : Bool
  hop : Byte
  cell : Cell
  source : CellSource
  sent : Nat
  deriving DecidableEq, Repr, Inhabited

/-! ### Slots and programmes (chapter 2) -/

/-- The weight class of a member (R26). -/
inductive WeightClass where
  | full | side | none
  deriving DecidableEq, Repr, Inhabited

/-- A slot map entry: a mode, with a programme and a class in the modes MEMBER and MEASURE only (R25). -/
inductive SlotEntry where
  | pass
  | member (p : Prog) (w : WeightClass)
  | measure (p : Prog) (w : WeightClass)
  | mute
  deriving DecidableEq, Repr, Inhabited

/-- The state of a programme (section 2.4). -/
inductive ProgState where
  | unused | dormant | tracking | held | overridden
  deriving DecidableEq, Repr, Inhabited

/-- Whether a programme is judged to carry audio (R39). -/
inductive Presence where
  | silent | present
  deriving DecidableEq, Repr, Inhabited

/-- A programme record (R31); its number is its place in the table. -/
structure ProgRecord where
  state : ProgState
  profile : ProfileNo
  generation : BitVec 8
  presence : Presence
  silentRun : Nat
  reference : Presence
  skipped : Nat
  deriving DecidableEq, Repr, Inhabited

/-! ### Measurement (chapter 3) -/

/-- A closed block: its sum of weighted squares, in units of 1 / (100 * 2^46) of full scale squared, and its frame count.
Its power is the first divided by the second, kept unrounded (R48). -/
structure BlockPower where
  sum : Nat
  frames : Nat
  deriving DecidableEq, Repr, Inhabited

/-- What the Meter holds for one programme (chapter 3, first table). `window` is the block powers of the window counting,
oldest first, or no window. `complete` is a window whose 75th block has closed and which waits for its boundary's segment
starts (R51). The ring is oldest first (R54). -/
structure MeterRecord where
  sum : Nat
  frames : Nat
  window : Option (List BlockPower)
  complete : Option (List BlockPower)
  ring : List Int
  histogram : Vector Nat 300
  total : Nat
  lastShort : Option Int
  lastIntegrated : Option Int
  resetMark : Bool
  deriving DecidableEq, Repr, Inhabited

/-! ### Profiles and law tables (chapter 4) -/

/-- The measured value a profile selects (section 3.4). -/
inductive Basis where
  | short | segment | blend
  deriving DecidableEq, Repr, Inhabited

/-- A profile record (R67), its fields in field order. -/
structure Profile where
  target : Int
  basis : Basis
  absoluteGate : Int
  relativeOffset : Int
  presenceThreshold : Int
  silenceWindows : Nat
  tolerance : Int
  lawTable : TableNo
  gainMin : Int
  gainMax : Int
  initialGain : Int
  raiseSlew : Nat
  lowerSlew : Nat
  ceiling : Int
  guardRelease : Nat
  pressureThreshold : Nat
  deriving DecidableEq, Repr, Inhabited

/-- A point of a law bank: a deviation and a gain (R75). -/
structure LawPoint where
  deviation : Int
  gain : Int
  deriving DecidableEq, Repr, Inhabited

/-- A bank of a law table: 32 points and a point count (R75). -/
structure LawBank where
  points : Vector LawPoint 32
  count : Nat
  deriving DecidableEq, Repr, Inhabited

/-- The letter of a bank. -/
inductive Bank where
  | a | b
  deriving DecidableEq, Repr, Inhabited

/-- A law table: two banks, the active selector and the swap-pending mark (R75). -/
structure LawTable where
  bankA : LawBank
  bankB : LawBank
  active : Bank
  pending : Bool
  deriving DecidableEq, Repr, Inhabited

/-! ### Cues (chapter 6) -/

/-- The kind of a cue (R116). -/
inductive CueKind where
  | segment | switch | hold | release | preset
  deriving DecidableEq, Repr, Inhabited

/-- An entry of the Cue Queue (R115). `due` is its state: set for DUE, clear for PENDING. -/
structure Cue where
  prog : Prog
  block : LinkTime
  kind : CueKind
  profile : Option ProfileNo
  gain : Option Int
  snap : Bool
  due : Bool
  late : Bool
  deriving DecidableEq, Repr, Inhabited

/-! ### The Law Engine and its arbiter (chapter 5) -/

/-- What a directive asks for (R88); an expected profile of `none` is ANY. -/
inductive DirectiveOp where
  | exchange (expected : Option ProfileNo) (new : ProfileNo)
  | force (gain : Int) (snap : Bool)
  | release
  deriving DecidableEq, Repr, Inhabited

/-- An entry of the directive queue (R88). -/
structure Directive where
  op : DirectiveOp
  prog : Prog
  reply : Reply
  abort : Bool
  deriving DecidableEq, Repr, Inhabited

/-- The PROBE in the probe slot (R89). -/
structure ProbeEntry where
  prog : Prog
  profile : ProfileNo
  reply : Reply
  abort : Bool
  deriving DecidableEq, Repr, Inhabited

/-- The arbiter: its queues and sets, participation flags and round-robin pointers (R88 to R94). The cue source is a view
onto the Cue Queue and holds nothing (R90). -/
structure Arbiter where
  directives : List Directive
  probe : Option ProbeEntry
  rescale : ProgSet
  retune : ProgSet
  rescaleOn : Bool
  retuneOn : Bool
  rescalePointer : Option Prog
  retunePointer : Option Prog
  deriving DecidableEq, Repr, Inhabited

/-- An operation of the Law Engine, with the operands of a directive or PROBE and the fields of a cue (R95). -/
inductive Operation where
  | retune
  | rescale
  | cue (c : Cue)
  | directive (d : DirectiveOp) (reply : Reply)
  | probe (profile : ProfileNo) (reply : Reply)
  deriving DecidableEq, Repr, Inhabited

/-- The items a snapshot takes for a RETUNE, RESCALE, CUE or PROBE (R95): the profile record computed with, the three
measured values and the pressure flag. -/
structure Computation where
  profile : Profile
  short : Option Int
  integrated : Option Int
  blend : Option Int
  pressure : Bool
  deriving DecidableEq, Repr, Inhabited

/-- The snapshot taken at grant (R95). -/
structure Snapshot where
  state : ProgState
  generation : BitVec 8
  profile : ProfileNo
  target : Int
  staged : Nat
  computation : Option Computation
  bank : Option (TableNo × Bank)
  deriving DecidableEq, Repr, Inhabited

/-- The in-flight record (R97). -/
structure InFlight where
  op : Operation
  prog : Prog
  snap : Snapshot
  discard : Bool
  boundaries : Nat
  deriving DecidableEq, Repr, Inhabited

/-! ### The Gain Stage (chapter 7) -/

/-- A staged entry (R139). -/
structure Staged where
  boundary : LinkTime
  kind : CueKind
  gain : Option Int
  snap : Bool
  late : Bool
  deriving DecidableEq, Repr, Inhabited

/-- A gain record (R139). The guard reduction is in steps of 0.1 dB. -/
structure GainRecord where
  target : Int
  current : Int
  snap : Bool
  staged : List Staged
  reduction : Nat
  guardLength : Nat
  guardCount : Nat
  pressure : Bool
  deriving DecidableEq, Repr, Inhabited

/-! ### The Notice Unit (chapter 9) -/

/-- The ten conditions, in the order of their bits (section 9.1). -/
inductive Condition where
  | linkLost | restarted | timeSlip | cueLate | cueWarn | cueSkipped | presence | guardPressure | cellLoss | swapDone
  deriving DecidableEq, Repr, Inhabited

/-- The notice state (R186). -/
inductive NoticeState where
  | none | pending | sending | sendingAgain
  deriving DecidableEq, Repr, Inhabited

/-- The Notice Unit (chapter 9). Bit n of a set of conditions stands for condition n. -/
structure NoticeUnit where
  flags : BitVec 10
  enable : BitVec 10
  mask : Nat
  destination : Byte
  warnLevel : Nat
  state : NoticeState
  deriving DecidableEq, Repr, Inhabited

/-! ### Why a step could stop -/

/-- The faults of the machine: none. No command of this part stops it; every refusal of a request is a status in a response. -/
inductive Fault where
  deriving DecidableEq, Repr

/-- The refusals of the machine. -/
inductive Refusal where
  /-- Raised by `exec` for a command that has no meaning yet. Safe: nothing can be proved of it. No arm raises it now. -/
  | notModelled (mnemonic : String)
  deriving DecidableEq, Repr

/-! ### The machine -/

/-- The state of the part. `sent` is the frame most recently sent on the outbound port. `delay` is the delay line, oldest
frame first (R16). `filterInput` is the input of the 64 weighting filters since they were last cleared, newest frame first
(R47). `heldStarts` is the set of segment starts of a boundary whose windows the Meter has still to complete (R51).
`lawMark` is the Law Store's in-use mark (R75). `owed` is the owed segment set (R115). `fresh` is the model's own counter of
free values drawn, and `pending` its queue of waiting commands, first in, first out. -/
structure State where
  straps : Straps
  rx : Receiver
  tx : OutSuperframe
  sent : Option Frame
  delay : List Samples
  filterInput : List Samples
  slots : Vector SlotEntry 64
  progs : Vector ProgRecord 16
  meters : Vector MeterRecord 16
  heldStarts : Option ProgSet
  profiles : Vector Profile 8
  laws : Vector LawTable 4
  lawMark : Option (TableNo × Bank)
  arbiter : Arbiter
  engine : Option InFlight
  cues : List Cue
  owed : ProgSet
  gains : Vector GainRecord 16
  cells : CellHandler
  notice : NoticeUnit
  fresh : Nat
  pending : List Instr
  deriving DecidableEq, Repr

/-! ### Values after reset -/

/-- A frame of silence (R1). -/
def silence : Samples := Vector.replicate 64 0

/-- The delay line cleared to silence: 128 frames (R16). -/
def silentDelay : List Samples := List.replicate 128 silence

/-- The Link Receiver after pin reset (R23). -/
def Receiver.reset : Receiver :=
  { lock := .search, possible := none, words := [], header := .unchecked, time := 0, expected := none, slip := none,
    settle := none, errorRun := 0, periods := 0, timeouts := 0, hop := 0 }

/-- A programme record after reset (R45). -/
def ProgRecord.reset : ProgRecord :=
  { state := .unused, profile := 0, generation := 0, presence := .silent, silentRun := 0, reference := .silent,
    skipped := 0 }

/-- A Meter record after reset (R66). -/
def MeterRecord.reset : MeterRecord :=
  { sum := 0, frames := 0, window := none, complete := none, ring := [], histogram := Vector.replicate 300 0, total := 0,
    lastShort := none, lastIntegrated := none, resetMark := false }

/-- A profile record after pin reset (R73). -/
def Profile.reset : Profile :=
  { target := -240, basis := .blend, absoluteGate := -700, relativeOffset := -100, presenceThreshold := -600,
    silenceWindows := 50, tolerance := 50, lawTable := 0, gainMin := -2000, gainMax := 1200, initialGain := 0,
    raiseSlew := 1, lowerSlew := 4, ceiling := -10, guardRelease := 5, pressureThreshold := 20 }

/-- A law bank after pin reset (R87). -/
def LawBank.reset : LawBank :=
  { points := ((Vector.replicate 32 ⟨0, 0⟩).set 0 ⟨-200, 2000⟩).set 1 ⟨200, -2000⟩, count := 2 }

/-- A law table after pin reset (R87). -/
def LawTable.reset : LawTable := { bankA := LawBank.reset, bankB := LawBank.reset, active := .a, pending := false }

/-- The arbiter after reset (R113). -/
def Arbiter.reset : Arbiter :=
  { directives := [], probe := none, rescale := 0, retune := 0, rescaleOn := true, retuneOn := true,
    rescalePointer := none, retunePointer := none }

/-- A gain record after reset (R161). -/
def GainRecord.reset : GainRecord :=
  { target := 0, current := 0, snap := false, staged := [], reduction := 0, guardLength := 0, guardCount := 0,
    pressure := false }

/-- The Cell Handler after pin reset (R182). -/
def CellHandler.reset : CellHandler :=
  { requests := [], inHand := none, forward := [], responses := [], headerErrors := 0, crcErrors := 0, dropped := 0 }

/-- The Notice Unit after pin reset and its claim of RESTARTED (R191): the flag RESTARTED (bit 1) set and a notice owed;
enabled are LINK_LOST, RESTARTED, TIME_SLIP and CUE_LATE (bits 0 to 3). -/
def NoticeUnit.reset : NoticeUnit :=
  { flags := 0b10, enable := 0b1111, mask := 0, destination := 1, warnLevel := 24, state := .pending }

/-- The notice of RESTARTED that the first outbound superframe after pin reset carries (R187, R191): the flags word, the
differing set, the pressure set and the cue occupancy as they stand then. -/
def firstNotice : MadeCell :=
  { destination := NoticeUnit.reset.destination, kind := 0xF0, status := 0, tag := 0, target := 0, index := 0, count := 0
    payload := bytes16 (NoticeUnit.reset.flags.setWidth 16) ++ bytes16 0 ++ bytes16 0 ++ [0] }

/-- The first outbound superframe, which the Link Transmitter begins on the reference clock at the release of RESET_N (R23):
local link time 0, ABSENT, hop address 0x00, and the notice that is owed. -/
def OutSuperframe.reset (straps : Straps) : OutSuperframe :=
  { time := 0, absent := true, bypass := false, hop := 0, cell := firstNotice.toCell (linkAddress straps), source := .notice,
    sent := 0 }

/-- The part at the release of RESET_N with its straps at the given levels (R22, R23, R45, R66, R73, R87, R113, R138, R161,
R182, R191). The first outbound superframe has begun with the notice of RESTARTED, and none of its frames has been sent:
assumption 15. -/
def State.afterReset (straps : Straps) : State :=
  { straps := straps, rx := .reset, tx := .reset straps, sent := none, delay := silentDelay, filterInput := [],
    slots := Vector.replicate 64 .pass, progs := Vector.replicate 16 .reset, meters := Vector.replicate 16 .reset,
    heldStarts := none, profiles := Vector.replicate 8 .reset, laws := Vector.replicate 4 .reset, lawMark := none,
    arbiter := .reset, engine := none, cues := [], owed := 0, gains := Vector.replicate 16 .reset, cells := .reset,
    notice := { NoticeUnit.reset with state := .sending }, fresh := 0, pending := [] }

/-- The machine right after reset. The levels of the straps are the board's: all are taken low (link address 0x40, settle
code 0), which PIN_RESET replaces by the levels it is given. DESIGN CHOICE, assumption 6; unsafe. -/
def State.reset : State := State.afterReset { address := 0, settle := 0 }

end Sys2Proof.Machine
end

