-- ==== Sys2Proof/Machine/Flags.lean ====
section
/-! DEFINITION. The condition flags and the notice state of the Notice Unit: what a claim does, and how the notice state
moves (chapter 9). -/

namespace Sys2Proof.Machine

/-- The bit of a condition (section 9.1). -/
def Condition.bit : Condition → Nat
  | .linkLost => 0 | .restarted => 1 | .timeSlip => 2 | .cueLate => 3 | .cueWarn => 4 | .cueSkipped => 5 | .presence => 6
  | .guardPressure => 7 | .cellLoss => 8 | .swapDone => 9

/-- The level of a condition (section 9.1). -/
def Condition.level : Condition → Nat
  | .linkLost => 7 | .restarted => 6 | .timeSlip => 5 | .cueLate => 4 | .cueWarn => 4 | .cueSkipped => 3 | .presence => 3
  | .guardPressure => 3 | .cellLoss => 2 | .swapDone => 1

/-- The notice state after a trigger (R186). -/
def NoticeState.trigger : NoticeState → NoticeState
  | .none => .pending
  | .pending => .pending
  | .sending => .sendingAgain
  | .sendingAgain => .sendingAgain

/-- The notice state after an outbound superframe start (R186). -/
def NoticeState.start : NoticeState → NoticeState
  | .none => .none
  | .pending => .sending
  | .sending => .sending
  | .sendingAgain => .sending

/-- The notice state after the sent report of a notice (R186). -/
def NoticeState.report : NoticeState → NoticeState
  | .none => .none
  | .pending => .pending
  | .sending => .none
  | .sendingAgain => .pending

/-- Whether a claim of a condition whose flag is clear is a trigger (R185). -/
def NoticeUnit.triggers (n : NoticeUnit) (c : Condition) : Bool :=
  decide (c.level = 7) || (n.enable.getLsbD c.bit && decide (n.mask < c.level))

/-- A claim of a condition: its flag becomes set, and a claim that takes it from clear to set may trigger (R184, R185). -/
def NoticeUnit.claim (n : NoticeUnit) (c : Condition) : NoticeUnit :=
  if n.flags.getLsbD c.bit then n
  else { n with flags := n.flags ||| BitVec.twoPow 10 c.bit
                state := if n.triggers c then n.state.trigger else n.state }

/-- A claim made where `b` holds. -/
def NoticeUnit.claimIf (n : NoticeUnit) (b : Bool) (c : Condition) : NoticeUnit := if b then n.claim c else n

/-! ### The claims of a block boundary (R13, R190) -/

/-- What the work of one block boundary claims: SWAP_DONE of a swap (R83), CUE_LATE of the due check (R124), and for the programmes
named CUE_LATE of stage 1 (R145) and GUARD_PRESSURE of stage 6 (R154). -/
structure BoundaryClaims where
  swap : Bool
  due : Bool
  staged : ProgSet
  pressed : ProgSet
  deriving DecidableEq, Repr

/-- Those of the claims of a boundary that an order takes before the choice of the outbound cell. -/
def BoundaryClaims.before (c : BoundaryClaims) (o : BoundaryOrder) : BoundaryClaims :=
  { swap := c.swap && o.swapFirst, due := c.due && o.dueFirst, staged := c.staged &&& o.stagedFirst
    pressed := c.pressed &&& o.stagedFirst &&& o.guardFirst }

/-- The claims of a boundary, taken one after another; several claims of one condition set the one flag. A claim that has been taken
already finds its flag set and changes nothing. -/
def NoticeUnit.takeClaims (n : NoticeUnit) (c : BoundaryClaims) : NoticeUnit :=
  ((n.claimIf c.swap .swapDone).claimIf (c.due || c.staged != 0) .cueLate).claimIf (c.pressed != 0) .guardPressure

end Sys2Proof.Machine
end

