-- ==== Sys2Proof/Machine/Operands.lean ====
section
/-! DEFINITION. The layouts of chapter 8: the fields of a cell, the operands a request carries in it, the check, and how
values are laid out in payloads, records and service words (R163, R164, R173, R183, section 8.12). -/

namespace Sys2Proof.Machine

/-! ### The fields of a cell (R163) -/

/-- Byte `i` of a cell. -/
def Cell.byte (c : Cell) (i : Nat) : Byte := c.getD i 0

/-- The destination of a cell. -/
def Cell.destination (c : Cell) : Byte := Cell.byte c 0
/-- The origin of a cell. -/
def Cell.origin (c : Cell) : Byte := Cell.byte c 1
/-- The kind code of a cell (R165). -/
def Cell.kind (c : Cell) : Nat := (Cell.byte c 2).toNat
/-- The target field of a request. -/
def Cell.target (c : Cell) : Nat := (Cell.byte c 5).toNat
/-- The index field of a request. -/
def Cell.index (c : Cell) : Nat := (Cell.byte c 6).toNat
/-- The count field of a request. -/
def Cell.count (c : Cell) : Nat := (Cell.byte c 7).toNat
/-- The payload length of a cell. -/
def Cell.payloadLength (c : Cell) : Nat := (Cell.byte c 8).toNat

/-- The fields of a request that its response echoes (R173). -/
def Cell.reply (c : Cell) : Reply :=
  { origin := Cell.byte c 1, kind := Cell.byte c 2, tag := Cell.byte c 4, target := Cell.byte c 5, index := Cell.byte c 6,
    count := Cell.byte c 7 }

/-! ### Operands (R171, R183, section 8.11). An operand is none where the payload ends before it. -/

/-- Payload byte `i`. -/
def Cell.operand (c : Cell) (i : Nat) : Option Byte := if i < Cell.payloadLength c then some (Cell.byte c (9 + i)) else none

/-- The 16-bit operand at payload byte `i`, most significant byte first. -/
def Cell.operand16 (c : Cell) (i : Nat) : Option (BitVec 16) :=
  match Cell.operand c i, Cell.operand c (i + 1) with
  | some h, some l => some (h ++ l)
  | _, _ => none

/-- The 32-bit operand at payload byte `i`. -/
def Cell.operand32 (c : Cell) (i : Nat) : Option (BitVec 32) :=
  match Cell.operand16 c i, Cell.operand16 c (i + 2) with
  | some h, some l => some (h ++ l)
  | _, _ => none

/-- The signed 16-bit operand at payload byte `i`. -/
def Cell.operandInt (c : Cell) (i : Nat) : Option Int := (Cell.operand16 c i).map (·.toInt)

/-- A programme number, none above 15. -/
def progOf (n : Nat) : Option Prog := if h : n < 16 then some ⟨n, h⟩ else none
/-- A profile number, none above 7. -/
def profileOf (b : Byte) : Option ProfileNo := if h : b.toNat < 8 then some ⟨b.toNat, h⟩ else none
/-- A law table number, none above 3. -/
def tableOf (n : Nat) : Option TableNo := if h : n < 4 then some ⟨n, h⟩ else none

/-- The programme that a request's target field names, none above 15. -/
def Cell.programme (c : Cell) : Option Prog := progOf (Cell.target c)

/-- The profile operand at payload byte `i`, none where it is above 7 or missing. -/
def Cell.profileOperand (c : Cell) (i : Nat) : Option ProfileNo := (Cell.operand c i).bind profileOf

/-- Whether a gain lies from -40.00 to +20.00 dB (00_scope.md). -/
def gainInRange (g : Int) : Bool := decide (-4000 ≤ g) && decide (g ≤ 2000)

/-- The gain operand at payload byte `i`, none where it is out of range or missing. -/
def Cell.gainOperand (c : Cell) (i : Nat) : Option Int := (Cell.operandInt c i).filter gainInRange

/-- Bit `i` of a byte of marks. -/
def markBit (b : Byte) (i : Nat) : Bool := b.getLsbD i

/-- The request kinds are 0x01 to 0x15 (R165). -/
def isRequestKind (k : Nat) : Bool := decide (1 ≤ k) && decide (k ≤ 0x15)

/-! ### Codes (section 8.12) -/

/-- The code of a status. -/
def Status.code : Status → Byte
  | .done => 0x00 | .partialDone => 0x01 | .badKind => 0x10 | .badIndex => 0x11 | .badValue => 0x12 | .badState => 0x13
  | .noRoom => 0x14 | .queueFull => 0x15 | .cueLate => 0x16 | .cueFar => 0x17 | .mismatch => 0x18 | .busy => 0x19
  | .aborted => 0x1A

/-- The code of a lock state. -/
def LockState.code : LockState → Byte
  | .search => 0 | .confirm => 1 | .settling => 2 | .running => 3

/-- The code of a programme state. -/
def ProgState.code : ProgState → Byte
  | .unused => 0 | .dormant => 1 | .tracking => 2 | .held => 3 | .overridden => 4

/-- The code of a weight class. -/
def WeightClass.code : WeightClass → Byte
  | .full => 0 | .side => 1 | .none => 2

/-- The weight class of a code. -/
def weightOf (b : Byte) : Option WeightClass :=
  if b = 0 then some .full else if b = 1 then some .side else if b = 2 then some .none else none

/-- The code of a basis. -/
def Basis.code : Basis → Byte
  | .short => 0 | .segment => 1 | .blend => 2

/-- The code of a cue kind. -/
def CueKind.code : CueKind → Byte
  | .segment => 0 | .switch => 1 | .hold => 2 | .release => 3 | .preset => 4

/-- The cue kind of a code. -/
def cueKindOf (b : Byte) : Option CueKind :=
  if b = 0 then some .segment else if b = 1 then some .switch else if b = 2 then some .hold
  else if b = 3 then some .release else if b = 4 then some .preset else none

/-- The code of a bank letter. -/
def Bank.code : Bank → Byte
  | .a => 0 | .b => 1

/-- The request code of a directive (section 8.11). -/
def DirectiveOp.code : DirectiveOp → Byte
  | .exchange _ _ => 0x0B | .force _ _ => 0x0C | .release => 0x0D

/-- The in-flight kind of an operation: 1 RETUNE, 2 RESCALE, 3 CUE, or the request code (section 8.12). -/
def Operation.code : Operation → Byte
  | .retune => 1 | .rescale => 2 | .cue _ => 3 | .directive d _ => d.code | .probe _ _ => 0x0E

/-! ### Checks and responses (R164, R173, R174) -/

/-- Whether the check of a cell agrees. -/
def Cell.checks (c : Cell) : Bool := bytes16 (crc (c.take 54)) == [Cell.byte c 54, Cell.byte c 55]

/-- The response to a request (R173). -/
def Reply.made (r : Reply) (st : Status) (count : Byte) (payload : List Byte) : MadeCell :=
  { destination := r.origin, kind := r.kind + 0x80, status := st.code, tag := r.tag, target := r.target, index := r.index,
    count := count, payload := payload }

/-- The idle cell: every byte but the origin and the check is 0 (R174). -/
def idleCell : MadeCell :=
  { destination := 0, kind := 0, status := 0, tag := 0, target := 0, index := 0, count := 0, payload := [] }

/-! ### Service words (R2, R163, section 8.12) -/

/-- The sync pattern. -/
def syncPattern : BitVec 16 := 0x6B2D

/-- Whether a service word carries the sync pattern (R3). -/
def hasSync (w : ServiceWord) : Bool := w.extractLsb' 16 16 == syncPattern

/-- The hop address of a header. -/
def hopOf (w : ServiceWord) : Byte := w.extractLsb' 0 8

/-- Whether a link time is a multiple of 16: the start of a superframe. -/
def onSuperframe (t : LinkTime) : Bool := t.extractLsb' 0 4 == 0

/-- Whether a link time is a multiple of 64: a block boundary. -/
def onBlock (t : LinkTime) : Bool := t.extractLsb' 0 6 == 0

/-- Whether a header is valid: the sync pattern in service word 0 and a link time that is a multiple of 16 in word 1 (R2). -/
def headerValid (w0 w1 : ServiceWord) : Bool := hasSync w0 && onSuperframe w1

/-- The cell of a superframe, lifted from its service words 2 to 15 (R15, R163). -/
def cellOfWords (words : List ServiceWord) : Cell := (words.drop 2).flatMap bytes32

/-- Service word `k` of a superframe whose cell is `c`, for `k` from 2 to 15 (R163). -/
def cellWord (c : Cell) (k : Nat) : ServiceWord :=
  Cell.byte c (4 * (k - 2)) ++ Cell.byte c (4 * (k - 2) + 1) ++ Cell.byte c (4 * (k - 2) + 2) ++ Cell.byte c (4 * (k - 2) + 3)

/-- Service word 0 of an outbound superframe (R20). -/
def headerWord (absent bypass : Bool) (hop : Byte) : ServiceWord :=
  syncPattern ++ (mark absent 1 ||| mark bypass 0) ++ hop

/-- Service word `k` of an outbound superframe. -/
def OutSuperframe.word (o : OutSuperframe) (k : Nat) : ServiceWord :=
  match k with
  | 0 => headerWord o.absent o.bypass o.hop
  | 1 => o.time
  | k => cellWord o.cell k

/-- The settle length of the settle straps, in superframes (R22). -/
def settleLength (s : Straps) : Nat := 16 * 4 ^ s.settle.toNat

end Sys2Proof.Machine
end

