-- ==== Sys2Proof/Machine/Quantities.lean ====
section
/-! DEFINITION. The arithmetic of gains, levels and loudness, exact: every comparison with a power of ten is made on whole
numbers, so no figure is rounded before its rule rounds it. Decibel figures are counts of their step. -/

namespace Sys2Proof.Machine

/-- The greatest `n` below `2 ^ bits` (added to `acc`) that satisfies a downward-closed `p`, found bit by bit from the top. -/
def greatestBelow (p : Nat → Bool) : (bits acc : Nat) → Nat
  | 0, acc => acc
  | bits + 1, acc => if p (acc + 2 ^ bits) then greatestBelow p bits (acc + 2 ^ bits) else greatestBelow p bits acc

/-- Whether `a ≤ b * 10 ^ (e / n)`, as whole numbers. -/
def powLE (a b n : Nat) : Int → Bool
  | .ofNat k => decide (a ^ n ≤ b ^ n * 10 ^ k)
  | .negSucc k => decide (a ^ n * 10 ^ (k + 1) ≤ b ^ n)

/-- `n / d` rounded to the nearest whole number, halves toward the higher value, for `d` above 0. -/
def roundedQuotient (n d : Int) : Int := (2 * n + d) / (2 * d)

/-- A gain held between two others (R68, "every clamp of a gain"). -/
def clampGain (low high g : Int) : Int := if g < low then low else if high < g then high else g

/-! ### Gained samples and peak levels (R17, R150) -/

/-- Full scale: the magnitude of the lowest sample (00_scope.md). -/
def fullScale : Nat := 8388608

/-- The magnitude of a sample of magnitude `m` under a gain of `g` steps of 0.01 dB, rounded to the nearest integer with
halves away from zero (R17): the greatest `n` with `n - 1/2 ≤ m * 10 ^ (g / 2000)`. -/
def gainedMagnitude (m : Nat) (g : Int) : Nat := greatestBelow (fun n => powLE (2 * n - 1) (2 * m) 2000 g) 24 0

/-- A sample multiplied by a gain, rounded and limited to the range of a sample (R17). -/
def gainSample (x : Sample) (g : Int) : Sample :=
  if x.toInt < 0 then BitVec.ofInt 24 (-(min (gainedMagnitude x.toInt.natAbs g) fullScale : Nat))
  else BitVec.ofInt 24 (min (gainedMagnitude x.toInt.natAbs g) (fullScale - 1) : Nat)

/-- Whether a magnitude `m` at a current gain of `c` steps of 0.01 dB has a level of at most `k` steps of 0.1 dBFS (R150):
`m * 10 ^ (c / 2000) ≤ 8388608 * 10 ^ (k / 200)`. -/
def levelAtMost (m : Nat) (c k : Int) : Bool := powLE m fullScale 2000 (10 * k - c)

/-- The peak level of a largest magnitude `m` at a current gain `c`, rounded up to the next 0.1 dB step, and -120.0 dBFS
where it is lower or `m` is 0 (R150). -/
def peakLevel (m : Nat) (c : Int) : Int :=
  -1200 + (greatestBelow (fun n => n == 0 || !levelAtMost m c (-1200 + n - 1)) 13 0 : Nat)

/-- The need: the peak level less the ceiling where that is positive, else 0.0 dB (R150). -/
def guardNeed (m : Nat) (c ceiling : Int) : Nat := (peakLevel m c - ceiling).toNat

/-! ### Loudness (R50, R57, R58) -/

/-- The sum of block powers as a fraction, in the unit of `BlockPower`. A block of no frames cannot occur (R48) and counts
as silent. -/
def powerSum (blocks : List BlockPower) : Nat × Nat :=
  blocks.foldl (fun acc b => if b.frames = 0 then acc else (acc.1 * b.frames + b.sum * acc.2, acc.2 * b.frames)) (0, 1)

/-- Whether the mean of 75 block powers whose sum is `power` has a loudness of at least `k - 1/2` steps of 0.1 LU, that is
`10 * log10 (mean) - 0.70 ≥ (k - 1/2) / 10` (R50): `mean ≥ 10 ^ ((2 * k + 13) / 200)`. -/
def loudnessAtLeast (power : Nat × Nat) (k : Int) : Bool :=
  powLE (power.2 * (75 * 100 * 2 ^ 46)) power.1 200 (-(2 * k + 13))

/-- The window loudness of a window's block powers, rounded to the nearest 0.1 LU with halves toward the higher value and
held at +20.0 LUFS, or none where the window is below floor (R50). -/
def windowLoudness (blocks : List BlockPower) : Option Int :=
  match greatestBelow (fun n => n == 0 || loudnessAtLeast (powerSum blocks) ((n : Int) - 701)) 10 0 with
  | 0 => none
  | n + 1 => some (min 200 ((n : Int) - 700))

/-- The whole part of `10 ^ (e / 200 + digits)`. -/
def root10 (digits e : Nat) : Nat :=
  greatestBelow (fun x => decide (x ^ 200 ≤ 10 ^ (e + 200 * digits))) (4 * (digits + e / 200 + 1)) 0

/-- Whether the sum of `count * 10 ^ (x / 200)` over `terms` is at least `total * 10 ^ (e / 200)`, where `total` is the sum
of the counts, judged between whole bounds at the first of the given numbers of digits that parts the two. -/
def energyAtLeast (terms : List (Nat × Nat)) (total e : Nat) : (digits : List Nat) → Bool
  | [] => false
  | d :: ds =>
    let low := (terms.map fun t => t.1 * root10 d t.2).sum
    if total * (root10 d e + 1) ≤ low then true
    else if low + total ≤ total * root10 d e then false
    else energyAtLeast terms total e ds

/-- The energy mean of loudness values with counts, `10 * log10` of the mean of `10 ^ (L / 10)`, rounded to the nearest
0.1 LU with halves toward the higher value (R57, R58). Equality with a half step cannot occur, and the last number of digits
parts any two sums the part can form: assumption 7. -/
def energyMean (terms : List (Nat × Int)) : Int :=
  let shifted := terms.map fun t => (t.1, (2 * t.2 + 1402).toNat)
  (greatestBelow (fun n => n == 0 || energyAtLeast shifted (terms.map (·.1)).sum (2 * n - 1) [12, 60, 600, 3200]) 10 0 : Nat)
    - 701

/-- The short-term value of a ring (R57). -/
def shortTermValue (ring : List Int) : Option Int :=
  if ring.isEmpty then none else some (energyMean (ring.map fun l => (1, l)))

/-- The centre of a histogram bin, in steps of 0.1 LUFS (R55). -/
def binCentre (k : Nat) : Int := -699 + 2 * k

/-- The bin that counts a window loudness of -70.0 LUFS or more (R55). -/
def binOf (l : Int) : Nat := min 299 ((l + 700) / 2).toNat

/-- The bins of a histogram that hold a count, with their centres. -/
def countedBins (histogram : Vector Nat 300) : List (Nat × Int) :=
  (histogram.toList.mapIdx fun k n => (n, binCentre k)).filter fun t => t.1 != 0

/-- The integrated value of a histogram under a relative offset, formed in two passes (R58). -/
def integratedValue (histogram : Vector Nat 300) (offset : Int) : Option Int :=
  let bins := countedBins histogram
  if bins.isEmpty then none
  else
    let gate := energyMean bins + offset
    some (energyMean (bins.filter fun t => decide (gate ≤ t.2)))

/-! ### Laws (R76, R77) -/

/-- The used points of a bank (R75). -/
def LawBank.used (b : LawBank) : List LawPoint := b.points.toList.take b.count

/-- The gain of a law at a deviation, over its used points (R77). A bank without used points is never evaluated (R75). -/
def lawGainOver : List LawPoint → Int → Int
  | [], _ => 0
  | [p], _ => p.gain
  | p :: q :: rest, d =>
    if d ≤ p.deviation then p.gain
    else if d < q.deviation then
      p.gain + roundedQuotient ((q.gain - p.gain) * (d - p.deviation)) (q.deviation - p.deviation)
    else lawGainOver (q :: rest) d

/-- The gain of a bank's law at a deviation (R77). -/
def LawBank.gainAt (b : LawBank) (d : Int) : Int := lawGainOver b.used d

/-- The first bad point of a bank that is not valid, or none where it is valid (R76). -/
def LawBank.firstBad (b : LawBank) : Option Nat :=
  if b.count < 2 then some b.count
  else (List.range b.count).find? fun k =>
    decide (1 ≤ k) &&
      decide ((b.points.toList.getD k default).deviation ≤ (b.points.toList.getD (k - 1) default).deviation)

/-- Whether a bank is valid (R76). -/
def LawBank.valid (b : LawBank) : Bool := b.firstBad.isNone

end Sys2Proof.Machine
end

