-- ==== Sys2Proof/Machine/Ops.lean ====
section
/-! DEFINITION. The named operations that the meanings share: link-time comparison, sets of programmes, claims, changes of
programme state, requests for the arbiter's sets, eligibility and cancel, and the filling of responses. Each operation is one
record update that names the fields it writes. -/

namespace Sys2Proof.Machine

/-! ### Link times (00_scope.md, "Link time comparison") -/

/-- A time is at or after another. -/
def atOrAfter (t u : LinkTime) : Bool := decide ((t - u).toNat < 2 ^ 31)
/-- A time is before another: it is not at or after it. -/
def before (t u : LinkTime) : Bool := !atOrAfter t u
/-- A time is at or before another. -/
def atOrBefore (t u : LinkTime) : Bool := atOrAfter u t
/-- A time is after another: it is not at or before it. -/
def after (t u : LinkTime) : Bool := !atOrBefore t u

/-- A due time rounded up to the first multiple of 64 at or after it, modulo 2^32 (R117). -/
def dueBlock (t : LinkTime) : LinkTime := (t + 63) &&& ~~~63
/-- A link time rounded down to a multiple of 64 (R117). -/
def currentBoundary (t : LinkTime) : LinkTime := t &&& ~~~63
/-- The position of a block in its four-block group (R13). -/
def groupPosition (t : LinkTime) : Nat := (t.toNat / 64) % 4

/-! ### One block's state replaced -/

/-- The state with another Link Receiver. -/
def State.setRx (s : State) (r : Receiver) : State := { s with rx := r }
/-- The state with another Cell Handler. -/
def State.setCells (s : State) (c : CellHandler) : State := { s with cells := c }
/-- The state with another arbiter. -/
def State.setArbiter (s : State) (a : Arbiter) : State := { s with arbiter := a }
/-- The state with another Notice Unit. -/
def State.setNotice (s : State) (n : NoticeUnit) : State := { s with notice := n }
/-- The state with another Cue Queue. -/
def State.setCues (s : State) (cues : List Cue) : State := { s with cues := cues }
/-- The state with other profile records. -/
def State.setProfiles (s : State) (v : Vector Profile 8) : State := { s with profiles := v }
/-- The state with other law tables. -/
def State.setLaws (s : State) (v : Vector LawTable 4) : State := { s with laws := v }
/-- The state with other gain records. -/
def State.setGains (s : State) (v : Vector GainRecord 16) : State := { s with gains := v }
/-- The state with other programme records. -/
def State.setProgs (s : State) (v : Vector ProgRecord 16) : State := { s with progs := v }
/-- The state after a free value has been drawn. -/
def State.draw (s : State) : State := { s with fresh := s.fresh + 1 }

/-! ### Programmes and sets of programmes -/

/-- The sixteen programmes, in number order. -/
def allProgs : List Prog := List.finRange 16
/-- The 64 slots, in slot order. -/
def allSlots : List SlotNo := List.finRange 64

/-- Whether a programme is a member of a set. -/
def ProgSet.mem (s : ProgSet) (p : Prog) : Bool := s.getLsbD p
/-- A set with a programme entered; a member stays a member (R91). -/
def ProgSet.insert (s : ProgSet) (p : Prog) : ProgSet := s ||| BitVec.twoPow 16 p
/-- A set with a programme removed. -/
def ProgSet.erase (s : ProgSet) (p : Prog) : ProgSet := s &&& ~~~BitVec.twoPow 16 p
/-- The set of the programmes that satisfy `f`. -/
def progSetOf (f : Prog → Bool) : ProgSet := BitVec.ofFnLE f

/-- Whether a programme is not UNUSED. -/
def State.opened (s : State) (p : Prog) : Bool := s.progs[p].state != .unused
/-- Whether a programme is TRACKING. -/
def State.tracking (s : State) (p : Prog) : Bool := s.progs[p].state == .tracking
/-- The active profile of a programme, as stored (R68). -/
def State.activeProfile (s : State) (p : Prog) : Profile := s.profiles[s.progs[p].profile]
/-- Whether a profile is in use: the active profile of a programme that is not UNUSED (R32). -/
def State.profileInUse (s : State) (q : ProfileNo) : Bool := allProgs.any fun p => s.opened p && s.progs[p].profile == q
/-- The part's own link address (R22). -/
def State.address (s : State) : Byte := linkAddress s.straps

/-- The programmes whose presence differs from their reference presence (R43). -/
def State.differing (s : State) : ProgSet := progSetOf fun p => s.progs[p].presence != s.progs[p].reference
/-- The programmes whose pressure flag is set (R154). -/
def State.pressureSet (s : State) : ProgSet := progSetOf fun p => s.gains[p].pressure

/-- The current link time of the part (R6): the assigned time of the superframe in progress in SETTLING and RUNNING, and the
local link time of the outbound superframe in progress in SEARCH and CONFIRM. -/
def State.currentTime (s : State) : LinkTime :=
  match s.rx.lock with
  | .settling | .running => s.rx.time
  | .search | .confirm => s.tx.time

/-! ### Slot map (R25 to R27) -/

/-- The programme a slot belongs to. -/
def SlotEntry.owner : SlotEntry → Option Prog
  | .member p _ | .measure p _ => some p
  | .pass | .mute => none

/-- Whether a slot is in MEMBER mode for a programme: gained in RUNNING and seen by the peak guard. -/
def SlotEntry.gainedBy (e : SlotEntry) (p : Prog) : Bool :=
  match e with
  | .member q _ => q == p
  | .pass | .measure _ _ | .mute => false

/-- The member list of a programme, in slot order (R27). -/
def State.members (s : State) (p : Prog) : List SlotNo := allSlots.filter fun i => s.slots[i].owner == some p

/-- The MEMBER slots of a programme, in slot order. -/
def State.gainedSlots (s : State) (p : Prog) : List SlotNo := allSlots.filter fun i => s.slots[i].gainedBy p

/-! ### Claims (R184) -/

/-- A claim of a condition, where `b` holds. -/
def State.claimIf (s : State) (b : Bool) (c : Condition) : State := { s with notice := s.notice.claimIf b c }
/-- A claim of a condition. -/
def State.claim (s : State) (c : Condition) : State := s.claimIf true c

/-! ### The arbiter's sets (R91) -/

/-- The arbiter with a programme removed from both sets. -/
def Arbiter.leave (a : Arbiter) (p : Prog) : Arbiter :=
  { a with retune := ProgSet.erase a.retune p, rescale := ProgSet.erase a.rescale p }

/-- A request for the retune set: taken where the flag is on and the programme is TRACKING, else dropped. -/
def State.requestRetune (s : State) (p : Prog) : State :=
  { s with arbiter := { s.arbiter with
      retune := if s.arbiter.retuneOn && s.tracking p then ProgSet.insert s.arbiter.retune p else s.arbiter.retune } }

/-- A request for the rescale set: taken where the flag is on and the programme is TRACKING, else dropped. -/
def State.requestRescale (s : State) (p : Prog) : State :=
  { s with arbiter := { s.arbiter with
      rescale := if s.arbiter.rescaleOn && s.tracking p then ProgSet.insert s.arbiter.rescale p else s.arbiter.rescale } }

/-- A request for the set an automatic operation was granted from: its re-entry or repeat (R99, R101). -/
def State.reenter (s : State) (op : Operation) (p : Prog) : State :=
  match op with
  | .retune => s.requestRetune p
  | .rescale => s.requestRescale p
  | .cue _ | .directive _ _ | .probe _ _ => s

/-! ### Programme records and gain records -/

/-- A programme record replaced. -/
def State.setProg (s : State) (p : Prog) (r : ProgRecord) : State := { s with progs := s.progs.set p r }
/-- A Meter record replaced. -/
def State.setMeter (s : State) (p : Prog) (m : MeterRecord) : State := { s with meters := s.meters.set p m }
/-- A gain record replaced. -/
def State.setGain (s : State) (p : Prog) (g : GainRecord) : State := { s with gains := s.gains.set p g }

/-- A record moved to a state; a change to a different state increments the generation once (R33). -/
def ProgRecord.toState (r : ProgRecord) (st : ProgState) : ProgRecord :=
  if r.state = st then r else { r with state := st, generation := r.generation + 1 }

/-- A programme moved to a state. A programme that leaves TRACKING leaves the retune and rescale sets (R34). -/
def State.moveTo (s : State) (p : Prog) (st : ProgState) : State :=
  { s with progs := s.progs.set p (s.progs[p].toState st)
           arbiter := if s.progs[p].state = .tracking ∧ st ≠ .tracking then s.arbiter.leave p else s.arbiter }

/-- The state that presence gives a programme released from HELD or OVERRIDDEN (R34). -/
def Presence.released : Presence → ProgState
  | .present => .tracking
  | .silent => .dormant

/-- A set-target claim: the gain, clamped to the active profile as stored, becomes the target. It is not taken for an UNUSED
programme (R140). -/
def State.setTarget (s : State) (p : Prog) (g : Int) : State :=
  { s with gains :=
      if s.opened p then
        s.gains.set p { s.gains[p] with target := clampGain (s.activeProfile p).gainMin (s.activeProfile p).gainMax g }
      else s.gains }

/-- A completion sets the active profile: the generation is incremented once (R33), and the target as it stands is clamped to
the new profile's stored range by a set-target claim (R104, R106). -/
def State.setProfile (s : State) (p : Prog) (q : ProfileNo) : State :=
  (s.setProg p { s.progs[p] with profile := q, generation := s.progs[p].generation + 1 }).setTarget p s.gains[p].target

/-- A cue or gain part skipped: counted up to 255, and CUE_SKIPPED claimed (R131). -/
def State.skipCue (s : State) (p : Prog) : State :=
  (s.setProg p { s.progs[p] with skipped := min 255 (s.progs[p].skipped + 1) }).claim .cueSkipped

/-! ### The cue source and cancel (R90, R99) -/

/-- The first DUE entry of a programme in queue order. -/
def firstDue (cues : List Cue) (p : Prog) : Option Cue := cues.find? fun c => c.due && c.prog == p

/-- The eligible entry of a programme: its first DUE entry, while its staged list holds fewer than 2 entries (R90). -/
def State.eligibleFor (s : State) (p : Prog) : Option Cue :=
  if s.gains[p].staged.length < 2 then firstDue s.cues p else none

/-- Whether an entry is eligible for the cue source. -/
def State.eligible (s : State) (c : Cue) : Bool := c.due && s.eligibleFor c.prog == some c

/-- Whether an entry became eligible between two states. -/
def newlyEligible (old new : State) : Bool :=
  allProgs.any fun p => (new.eligibleFor p).isSome && new.eligibleFor p != old.eligibleFor p

/-- Whether an automatic operation, a RETUNE or a RESCALE, is in flight. -/
def Operation.automatic : Operation → Bool
  | .retune | .rescale => true
  | .cue _ | .directive _ _ | .probe _ _ => false

/-- Whether the operation in flight, if any, is an automatic one, which a cancel withdraws. -/
def State.automaticInFlight (s : State) : Bool := s.engine.any fun f => f.op.automatic

/-- The end of an operation's time in flight: the engine is idle and the in-use mark clear (R78, R98). -/
def State.idleEngine (s : State) : State := { s with engine := none, lawMark := none }

/-- A cancel: an automatic operation in flight is withdrawn with none of its effects and its programme repeated into the set
it came from. Any other operation in flight stays (R99). -/
def State.cancelAutomatic (s : State) : State :=
  match s.engine with
  | some f => if f.op.automatic then s.idleEngine.reenter f.op f.prog else s
  | none => s

/-- After an event that led from `old` to `new`: an entry that became eligible cancels an automatic operation (R90, R99). -/
def offerCues (old new : State) : State := if newlyEligible old new then new.cancelAutomatic else new

/-! ### Responses (R171 to R173) -/

/-- The response entries an operation in flight holds reserved. -/
def Operation.reserved : Operation → Nat
  | .directive _ _ | .probe _ _ => 1
  | .retune | .rescale | .cue _ => 0

/-- The number of reservations: the requests taken and not yet answered (R172). -/
def State.reservations (s : State) : Nat :=
  (if s.cells.inHand.isSome then 1 else 0) + s.arbiter.directives.length + (if s.arbiter.probe.isSome then 1 else 0) +
    match s.engine with
    | some f => f.op.reserved
    | none => 0

/-- A reserved entry of a directive or PROBE is filled: a completed response joins the tail of the response queue (R110). -/
def State.fill (s : State) (r : Reply) (st : Status) (payload : List Byte) : State :=
  { s with cells := { s.cells with responses := s.cells.responses ++ [r.made st r.count payload] } }

/-- The request in hand is answered with the given count, and its taking ends (R171). -/
def State.answerCount (s : State) (c : Cell) (st : Status) (count : Byte) (payload : List Byte) : State :=
  { s with cells := { s.cells with inHand := none
                                   responses := s.cells.responses ++ [(Cell.reply c).made st count payload] } }

/-- The request in hand is answered: with its own count, and with 0 for a READ that is refused (R173). -/
def State.answer (s : State) (c : Cell) (st : Status) (payload : List Byte) : State :=
  s.answerCount c st (if Cell.kind c = 0x02 then 0 else Cell.byte c 7) payload

/-- The request rows of the table: the request in hand, where it is of the row's kind, is handled by the row's meaning. A
payload length above 45 is answered BAD_VALUE (R171). Without such a request in hand the row's event does not occur and the
command changes nothing: assumption 8. -/
def onRequest (code : Nat) (handle : Cell → State → State) (s : State) : State :=
  match s.cells.inHand with
  | none => s
  | some c =>
    if Cell.kind c = code then if 45 < Cell.payloadLength c then s.answer c .badValue [] else handle c s
    else s

/-! ### Segment starts (R60) -/

/-- The Meter's part of a segment start: the ring, the histogram and the last values are emptied, and a window counting
gives way to a new one with a block count of 0. -/
def MeterRecord.startSegment (m : MeterRecord) : MeterRecord :=
  { m with window := m.window.map fun _ => [], complete := none, ring := [], histogram := Vector.replicate 300 0, total := 0,
           lastShort := none, lastIntegrated := none }

/-- A segment start that takes effect at a block boundary: the Meter's part, and one increment of the generation. The
segment-reset mark was cleared when the boundary took it (R60). -/
def State.startSegment (s : State) (p : Prog) : State :=
  { s with meters := s.meters.set p s.meters[p].startSegment
           progs := s.progs.set p { s.progs[p] with generation := s.progs[p].generation + 1 } }

end Sys2Proof.Machine
end

