-- ==== Sys2Proof/Machine/Cells.lean ====
section
/-! DEFINITION. The Cell Handler: the sorting of arriving cells, and the commands REQUEST_TAKE, UNKNOWN_REQUEST, IDENT, RESTART,
CONDITIONS_READ, CONDITIONS_CLEAR and NOTICE_SET (chapters 8 and 9). -/

namespace Sys2Proof.Machine

/-! ### Cells arriving (R166 to R168) -/

/-- The number of cells the request queue and the forward queue each hold at most (R169, R170). -/
def queueLimit : Nat := 4

/-- A counter incremented, staying at 65535 once there (R168). -/
def countUp (n : Nat) : Nat := min 65535 (n + 1)

/-- A cell dropped for a full queue: counted, and CELL_LOSS claimed (R168). -/
def State.dropCell (s : State) : State :=
  (s.setCells { s.cells with dropped := countUp s.cells.dropped }).claim .cellLoss

/-- A cell joins the tail of the request queue, or is dropped where the queue is full (R166, R168). -/
def State.joinRequests (s : State) (c : Cell) : State :=
  if s.cells.requests.length < queueLimit then s.setCells { s.cells with requests := s.cells.requests ++ [c] }
  else s.dropCell

/-- A cell joins the tail of the forward queue, or is dropped where the queue is full (R166, R168). -/
def State.joinForward (s : State) (c : Cell) : State :=
  if s.cells.forward.length < queueLimit then s.setCells { s.cells with forward := s.cells.forward ++ [c] }
  else s.dropCell

/-- A broadcast IDENT joins both queues together, or is dropped whole (R167). -/
def State.joinBoth (s : State) (c : Cell) : State :=
  if s.cells.requests.length < queueLimit ∧ s.cells.forward.length < queueLimit then
    s.setCells { s.cells with requests := s.cells.requests ++ [c], forward := s.cells.forward ++ [c] }
  else s.dropCell

/-- Whether a cell is one that joins the forward queue (R166, R167). -/
def State.forwards (s : State) (c : Cell) : Bool :=
  Cell.destination c != 0 && Cell.checks c && Cell.destination c != s.address

/-- A cell handed over by the Link Receiver is sorted at once, in the order of R166. -/
def State.arriveCell (s : State) (c : Cell) : State :=
  if Cell.destination c = 0 then s
  else if !Cell.checks c then
    (s.setCells { s.cells with crcErrors := countUp s.cells.crcErrors }).claim .cellLoss
  else if Cell.destination c = s.address then if 0x80 ≤ Cell.kind c then s else s.joinRequests c
  else if Cell.destination c = 0xFF ∧ Cell.kind c = 0x01 then s.joinBoth c
  else s.joinForward c

/-! ### REQUEST_TAKE (R170, R171) -/

/-- Whether a request is a directive (R88). -/
def Cell.isDirective (c : Cell) : Bool := decide (0x0B ≤ Cell.kind c) && decide (Cell.kind c ≤ 0x0D)

/-- The test of R170 for a head of the request queue, made when no request is in hand. -/
def State.mayTake (s : State) (head : Cell) : Bool :=
  s.cells.inHand.isNone && decide (s.cells.responses.length + s.reservations < 8) &&
    (!Cell.isDirective head || decide (s.arbiter.directives.length < 4))

/-- The head of the request queue is taken into hand where the test passes; it then holds a reservation (R170, R171). -/
def takeRequest (s : State) : State :=
  match s.cells.requests with
  | head :: rest =>
    if s.mayTake head then s.setCells { s.cells with requests := rest, inHand := some head } else s
  | [] => s

/-- REQUEST_TAKE (R170): takes the head of the request queue, or leaves it waiting. -/
def execRequestTake (s : State) : Host.Outcome State Fault Refusal := .next (takeRequest s)

/-- A request in hand whose kind is not one of the 21 is answered BAD_KIND (R171). -/
def answerUnknown (s : State) : State :=
  match s.cells.inHand with
  | some c => if isRequestKind (Cell.kind c) then s else s.answer c .badKind []
  | none => s

/-- UNKNOWN_REQUEST (R171): answers a request of unknown kind. -/
def execUnknownRequest (s : State) : Host.Outcome State Fault Refusal := .next (answerUnknown s)

/-! ### IDENT (R179) -/

/-- The condition flags as the 16-bit word of section 9.1. -/
def NoticeUnit.word (n : NoticeUnit) : BitVec 16 := n.flags.setWidth 16

/-- The payload of an IDENT response: NL412, the revision, the address, the lock state, the settle code, the flags and the
current link time (R179, section 8.12). -/
def State.identPayload (s : State) : List Byte :=
  [0x4E, 0x4C, 0x34, 0x31, 0x32, 1, s.address, s.rx.lock.code, s.straps.settle.setWidth 8] ++ bytes16 s.notice.word ++
    bytes32 s.currentTime

/-- IDENT (R179): returns the part's identity and state. -/
def execIdent (s : State) : Host.Outcome State Fault Refusal :=
  .next (onRequest 0x01 (fun c s => s.answer c .done s.identPayload) s)

/-! ### CONDITIONS_READ, CONDITIONS_CLEAR and NOTICE_SET (R188, R189) -/

/-- CONDITIONS_READ (R188): returns the ten flags. -/
def execConditionsRead (s : State) : Host.Outcome State Fault Refusal :=
  .next (onRequest 0x12 (fun c s => s.answer c .done (bytes16 s.notice.word)) s)

/-- CONDITIONS_CLEAR: every flag named in the set is cleared; bits 10 to 15 are not examined (R188). -/
def clearConditions (c : Cell) (s : State) : State :=
  match Cell.operand16 c 0 with
  | none => s.answer c .badValue []
  | some set => (s.setNotice { s.notice with flags := s.notice.flags &&& ~~~set.setWidth 10 }).answer c .done []

/-- CONDITIONS_CLEAR (R188): clears the named flags. -/
def execConditionsClear (s : State) : Host.Outcome State Fault Refusal := .next (onRequest 0x13 clearConditions s)

/-- NOTICE_SET: the four values are checked and replaced together; bits 10 to 15 of the enable set are not examined (R189). -/
def setNotice (c : Cell) (s : State) : State :=
  match Cell.operand c 0, Cell.operand16 c 1, Cell.operand c 3, Cell.operand c 4 with
  | some mask, some enable, some destination, some level =>
    if 7 < mask.toNat ∨ destination = 0 ∨ level = 0 ∨ 32 < level.toNat then s.answer c .badValue []
    else
      (s.setNotice { s.notice with
          mask := mask.toNat, enable := enable.setWidth 10, destination := destination, warnLevel := level.toNat }).answer c
        .done []
  | _, _, _, _ => s.answer c .badValue []

/-- NOTICE_SET (R189): replaces the mask level, enable set, notice destination and cue warning level. -/
def execNoticeSet (s : State) : Host.Outcome State Fault Refusal := .next (onRequest 0x14 setNotice s)

/-! ### RESTART (R180) -/

/-- The outbound superframe in progress through a RESTART: the copied cell is still sent whole, and the report of a response
finds nothing to remove (R21, R180). -/
def OutSuperframe.forgetResponse (o : OutSuperframe) : OutSuperframe :=
  { o with source := if o.source = .response then .gone else o.source }

/-- The Notice Unit after a RESTART: every flag clear and no notice owed, and then RESTARTED claimed against the mask and the
enables as they stand (R192). -/
def NoticeUnit.restarted (n : NoticeUnit) : NoticeUnit := ({ n with flags := 0, state := .none } : NoticeUnit).claim .restarted

/-- RESTART: every block takes its RESTART effect, the link side, the profiles, the law tables and the forward queue carry on,
and its own response is then the one completed response (R24, R46, R66, R73, R87, R114, R138, R162, R180, R192). -/
def restartPart (c : Cell) (s : State) : State :=
  { s with
    tx := s.tx.forgetResponse
    slots := Vector.replicate 64 .pass
    progs := Vector.replicate 16 .reset
    meters := Vector.replicate 16 .reset
    heldStarts := none
    lawMark := none
    arbiter := .reset
    engine := none
    cues := []
    owed := 0
    gains := Vector.replicate 16 .reset
    cells :=
      { s.cells with
        requests := [], inHand := none, headerErrors := 0, crcErrors := 0, dropped := 0
        responses := [(Cell.reply c).made .done (Cell.byte c 7) []] }
    notice := s.notice.restarted }

/-- RESTART (R180): restarts the part's processing from the link. -/
def execRestart (s : State) : Host.Outcome State Fault Refusal := .next (onRequest 0x15 restartPart s)

end Sys2Proof.Machine
end

