-- ==== Sys2Proof/Machine/Cues.lean ====
section
/-! DEFINITION. The Cue Queue: the due check of a boundary, and the commands CUE_POST and CUE_WITHDRAW (chapter 6). -/

namespace Sys2Proof.Machine

/-! ### The due check (R124, R125) -/

/-- Whether a boundary makes an entry DUE: it is PENDING and its due block is at or before the boundary (R124). An entry accepted late
outside RUNNING is judged the same way: assumption 30. -/
def Cue.becomesDue (c : Cue) (t : LinkTime) : Bool := !c.due && atOrBefore c.block t

/-- An entry after the due check of a boundary: one that becomes DUE after its due block carries the late mark (R124). -/
def Cue.checkDue (t : LinkTime) (c : Cue) : Cue :=
  if c.becomesDue t then { c with due := true, late := c.late || before c.block t } else c

/-- The programmes whose SEGMENT entries become DUE at a boundary (R125). -/
def State.dueSegments (s : State) (t : LinkTime) : ProgSet :=
  progSetOf fun p => s.cues.any fun c => c.prog == p && c.kind == CueKind.segment && c.becomesDue t

/-- The segment-start set the Cue Queue hands the Meter at a boundary: the SEGMENT entries that become DUE there and the owed
segment set (R125). -/
def State.cueStarts (s : State) (t : LinkTime) : ProgSet := s.dueSegments t ||| s.owed

/-- Whether a boundary makes an entry DUE late, which claims CUE_LATE once (R124). An entry that carries the late mark from its
acceptance counts by its due block alone: assumption 30. -/
def State.dueLate (s : State) (t : LinkTime) : Bool := s.cues.any fun c => c.becomesDue t && before c.block t

/-- The due check of an input-side boundary in RUNNING, but for its claim: entries become DUE in their places, the owed segment set
is emptied into the boundary's set, and an entry that becomes eligible cancels (R124 to R126). -/
def State.dueCheck (s : State) (t : LinkTime) : State :=
  offerCues s { s with cues := s.cues.map (Cue.checkDue t), owed := 0 }

/-! ### CUE_POST (R115 to R122) -/

/-- The fields of a cue as a request carries them (section 8.12, cue operands). -/
structure CueOperands where
  time : LinkTime
  kind : CueKind
  profile : Option ProfileNo
  gain : Option Int
  snap : Bool
  deriving DecidableEq, Repr

/-- Whether a kind takes the fields given: a required field is present, a field not taken is absent, and snap is clear where it
is not taken (R116). -/
def CueKind.takes (k : CueKind) (profile gain snap : Bool) : Bool :=
  match k with
  | .segment => true
  | .switch => profile && !gain && !snap
  | .hold => !profile && !gain && !snap
  | .release => !profile && !gain && !snap
  | .preset => !profile && gain

/-- An optional field: read only where its mark is set; none where it is then missing or out of range (R171, R183). -/
def optionalField {α : Type} (marked : Bool) (field : Option α) : Option (Option α) :=
  if marked then field.map some else some none

/-- The cue operands of a request, or none where a check of R118, row 3, fails or one of them is missing. -/
def Cell.cueOperands (c : Cell) : Option CueOperands :=
  match Cell.operand32 c 0, (Cell.operand c 4).bind cueKindOf, Cell.operand c 5 with
  | some time, some kind, some marks =>
    match optionalField (markBit marks 0) (Cell.profileOperand c 6), optionalField (markBit marks 1) (Cell.gainOperand c 7) with
    | some profile, some gain =>
      if kind.takes profile.isSome gain.isSome (markBit marks 2) then some ⟨time, kind, profile, gain, markBit marks 2⟩
      else none
    | _, _ => none
  | _, _, _ => none

/-- Whether an entry names a programme and a due block. -/
def Cue.names (p : Prog) (d : LinkTime) (c : Cue) : Bool := c.prog == p && c.block == d

/-- A cue inserted by the scan of R119: before the first entry whose due block is after its own, or at the tail. -/
def insertCue (new : Cue) : List Cue → List Cue
  | [] => [new]
  | c :: rest => if after c.block new.block then new :: c :: rest else c :: insertCue new rest

/-- The far limit of a lead, 2^27 frames (R118). -/
def farLead : Nat := 134217728

/-- The greatest lateness that is near, 768 frames (R117). -/
def nearLateness : Nat := 768

/-- An accepted post takes its place in the queue (R119 to R122): a matching PENDING entry is removed first; a passed block
claims CUE_LATE; an insertion that brings the occupancy up to the warning level claims CUE_WARN; a late SEGMENT accepted DUE
joins the owed segment set; an entry that becomes eligible cancels. -/
def State.insertPosted (s : State) (new : Cue) (replaced : Bool) : State :=
  let kept := s.cues.filter fun c => !(Cue.names new.prog new.block c && !c.due)
  let cues := insertCue new kept
  offerCues s ((({ s with
      cues := cues
      owed := if new.due && new.kind == CueKind.segment then ProgSet.insert s.owed new.prog else s.owed }).claimIf
    new.late .cueLate).claimIf
    (!replaced && decide (s.cues.length < s.notice.warnLevel) && decide (s.notice.warnLevel ≤ cues.length)) .cueWarn)

/-- CUE_POST with its checks in the order of R118. -/
def postCue (c : Cell) (s : State) : State :=
  match Cell.programme c with
  | none => s.answer c .badIndex []
  | some p =>
    if !s.opened p then s.answer c .badState []
    else
      match Cell.cueOperands c with
      | none => s.answer c .badValue []
      | some o =>
        let d := dueBlock o.time
        let now := s.currentTime
        let b := currentBoundary now
        let ahead := after d b
        let matching := s.cues.filter (Cue.names p d)
        if ahead && decide (farLead < (d - now).toNat) then s.answer c .cueFar (bytes32 d ++ bytes32 now)
        else if !ahead && decide (nearLateness < (b - d).toNat) then s.answer c .cueLate (bytes32 d ++ bytes32 now)
        else if matching.any (·.due) then s.answer c .badState (bytes32 d)
        else if 32 ≤ s.cues.length ∧ matching.isEmpty then s.answer c .queueFull [byteNat s.cues.length]
        else
          let due := !ahead && s.rx.lock == .running
          let replaced := !matching.isEmpty
          let s1 := s.insertPosted
            { prog := p, block := d, kind := o.kind, profile := o.profile, gain := o.gain, snap := o.snap, due := due,
              late := !ahead } replaced
          s1.answer c .done (bytes32 d ++ [mark due 0 ||| mark (!ahead) 1 ||| mark replaced 2, byteNat s1.cues.length])

/-- CUE_POST (R118): checks a cue and inserts it. -/
def execCuePost (s : State) : Host.Outcome State Fault Refusal := .next (onRequest 0x09 postCue s)

/-! ### CUE_WITHDRAW (R134) -/

/-- CUE_WITHDRAW with its checks in the order of R134. -/
def withdrawCue (c : Cell) (s : State) : State :=
  match Cell.programme c, Cell.operand32 c 0 with
  | none, _ => s.answer c .badIndex []
  | some _, none => s.answer c .badValue []
  | some p, some time =>
    match s.cues.find? (Cue.names p (dueBlock time)) with
    | none => s.answer c .badIndex []
    | some e =>
      if e.due then s.answer c .badState []
      else
        let kept := s.cues.filter fun x => !Cue.names p (dueBlock time) x
        (s.setCues kept).answer c .done [byteNat kept.length]

/-- CUE_WITHDRAW (R134): removes a PENDING entry. -/
def execCueWithdraw (s : State) : Host.Outcome State Fault Refusal := .next (onRequest 0x0A withdrawCue s)

end Sys2Proof.Machine
end

