-- ==== Sys2Proof/Machine/Measurement.lean ====
section
/-! DEFINITION. The Meter and presence: block accumulation and closing, windows, window reports, segment starts at
boundaries, the departure from RUNNING, and the command WINDOW_COMPLETION (chapter 3 and section 2.6). -/

namespace Sys2Proof.Machine

/-! ### Block accumulation (R47) -/

/-- The filtered sample of a slot at the frame just taken (R47). -/
def State.filtered (s : State) (i : SlotNo) : Sample := Config.weighting (s.filterInput.map fun f => f[i])

/-- A filtered sample's square times a hundred times a weight factor, in the unit of `BlockPower` (R26, R47). -/
def weightedSquare (hundredths : Nat) (x : Sample) : Nat := hundredths * x.toInt.natAbs ^ 2

/-- What a slot adds to a programme's block sum at one frame: nothing unless it is a measured slot of the programme (R26). -/
def slotPower (e : SlotEntry) (p : Prog) (filtered : Sample) : Nat :=
  match e with
  | .pass | .mute => 0
  | .member q w | .measure q w =>
    if q = p then
      match w with
      | .full => weightedSquare 100 filtered
      | .side => weightedSquare 141 filtered
      | .none => 0
    else 0

/-- What one frame adds to a programme's block sum. -/
def State.framePower (s : State) (p : Prog) : Nat := (allSlots.map fun i => slotPower s.slots[i] p (s.filtered i)).sum

/-- The Meter's work at a frame in RUNNING: every programme that is not UNUSED adds the frame to its block (R47). -/
def State.accumulate (s : State) : State :=
  { s with meters := Vector.ofFn fun p : Prog =>
      if s.opened p then { s.meters[p] with sum := s.meters[p].sum + s.framePower p, frames := s.meters[p].frames + 1 }
      else s.meters[p] }

/-! ### Window reports and presence (R39 to R42) -/

/-- The presence that a report leaves, and the silent run (R39). `none` is the below-floor mark. -/
def reportedPresence (q : Profile) (r : ProgRecord) (loudness : Option Int) : Presence × Nat :=
  if (match loudness with | some l => decide (q.presenceThreshold ≤ l) | none => false) then (.present, 0)
  else if q.silenceWindows ≤ min 255 (r.silentRun + 1) then (.silent, min 255 (r.silentRun + 1))
  else (r.presence, min 255 (r.silentRun + 1))

/-- The state that a change of presence moves a programme to (R41). -/
def presenceState (st : ProgState) (pr : Presence) : ProgState :=
  match st, pr with
  | .dormant, .present => .tracking
  | .tracking, .silent => .dormant
  | st, _ => st

/-- A programme record with the presence and the silent run that a report leaves (R39). -/
def ProgRecord.report (q : Profile) (r : ProgRecord) (loudness : Option Int) : ProgRecord :=
  { r with presence := (reportedPresence q r loudness).1, silentRun := (reportedPresence q r loudness).2 }

/-- A programme record after a report: a change of presence moves its state (R39, R41). -/
def ProgRecord.afterReport (q : Profile) (r : ProgRecord) (loudness : Option Int) : ProgRecord :=
  if (r.report q loudness).presence = r.presence then r.report q loudness
  else (r.report q loudness).toState (presenceState r.state (r.report q loudness).presence)

/-- Whether a report claims PRESENCE: it changes presence, away from the reference presence (R42). -/
def ProgRecord.claimsPresence (old new : ProgRecord) : Bool := new.presence != old.presence && new.presence != old.reference

/-- The Programme Table takes a window report: the record follows it, PRESENCE is claimed where presence changes away from the
reference, and a programme that leaves TRACKING leaves the arbiter's sets (R34, R39 to R42). A report for an UNUSED programme is
ignored. -/
def State.reportWindow (s : State) (p : Prog) (loudness : Option Int) : State :=
  if s.opened p then
    { s with
      progs := s.progs.set p (s.progs[p].afterReport (s.activeProfile p) loudness)
      arbiter :=
        if s.progs[p].state = .tracking ∧ (s.progs[p].afterReport (s.activeProfile p) loudness).state ≠ .tracking then
          s.arbiter.leave p
        else s.arbiter
      notice := s.notice.claimIf (s.progs[p].claimsPresence (s.progs[p].afterReport (s.activeProfile p) loudness)) .presence }
  else s

/-! ### Window completion (R50 to R55) -/

/-- A window loudness entered into the short-term ring, which keeps the last 30 (R54). -/
def enterRing (ring : List Int) (l : Int) : List Int := (ring ++ [l]).drop (ring.length + 1 - 30)

/-- A window counted in the histogram and the counted-window total, both saturating (R55). -/
def MeterRecord.countWindow (m : MeterRecord) (l : Int) : MeterRecord :=
  { m with histogram := m.histogram.set (binOf l) (min 65535 (m.histogram[binOf l]'(by unfold binOf; omega) + 1))
             (by unfold binOf; omega)
           total := min (2 ^ 32 - 1) (m.total + 1) }

/-- The ring entry and histogram count of a completed window, by the programme's state (R52). -/
def MeterRecord.takeWindow (m : MeterRecord) (st : ProgState) (gate : Int) (loudness : Option Int) : MeterRecord :=
  match st, loudness with
  | .tracking, some l | .held, some l | .overridden, some l =>
    let m := { m with ring := enterRing m.ring l }
    if gate ≤ l then m.countWindow l else m
  | _, _ => m

/-- A completed window handed on: ring and histogram first, then the retune request in TRACKING, last the report (R52). -/
def State.completeWindow (s : State) (p : Prog) (blocks : List BlockPower) : State :=
  let loudness := windowLoudness blocks
  let s1 := s.setMeter p ({ s.meters[p] with complete := none }.takeWindow s.progs[p].state
    (s.activeProfile p).absoluteGate loudness)
  (if s.tracking p then s1.requestRetune p else s1).reportWindow p loudness

/-- One programme's part of the Meter's work once it holds a boundary's segment starts: a programme named in them starts its
segment and its window is discarded; any other completes a window whose 75th block has closed (R51). -/
def State.settleWindow (starts : ProgSet) (s : State) (p : Prog) : State :=
  if ProgSet.mem starts p then s.startSegment p
  else
    match s.meters[p].complete with
    | some blocks => s.completeWindow p blocks
    | none => s

/-- The Meter completes or discards the windows of the boundary whose segment starts it holds (R51). -/
def State.settleWindows (s : State) : State :=
  match s.heldStarts with
  | some starts => { allProgs.foldl (State.settleWindow starts) s with heldStarts := none }
  | none => s

/-! ### The Meter at a block boundary (R48, R49, R62, R64) -/

/-- A Meter record at an input-side boundary in RUNNING: the block of a window counting is closed, a programme without a
window begins one, and the accumulation begins afresh. At the entry to RUNNING every window is begun anew. -/
def MeterRecord.closeBlock (m : MeterRecord) (entry : Bool) : MeterRecord :=
  match entry, m.window with
  | false, some blocks =>
    if blocks.length = 74 then
      { m with sum := 0, frames := 0, window := some [], complete := some (blocks ++ [⟨m.sum, m.frames⟩]), resetMark := false }
    else { m with sum := 0, frames := 0, window := some (blocks ++ [⟨m.sum, m.frames⟩]), resetMark := false }
  | _, _ => { m with sum := 0, frames := 0, window := some [], resetMark := false }

/-- The programmes whose segment-reset mark is set (R62). -/
def State.resetMarks (s : State) : ProgSet := progSetOf fun p => s.meters[p].resetMark

/-- The Meter's work at an input-side boundary in RUNNING: it closes blocks and holds the boundary's segment starts, those of
the Cue Queue's set and its own segment-reset marks, until it completes the windows (R48, R51, R62). -/
def State.meterBoundary (s : State) (cueStarts : ProgSet) (entry : Bool) : State :=
  { s with meters := Vector.ofFn fun p : Prog => if s.opened p then s.meters[p].closeBlock entry else s.meters[p]
           heldStarts := some (cueStarts ||| s.resetMarks) }

/-- One programme at a boundary in SETTLING: a set segment-reset mark is cleared and the segment starts there (R60, R62). -/
def State.takeResetMark (s : State) (p : Prog) : State :=
  if s.meters[p].resetMark then (s.setMeter p { s.meters[p] with resetMark := false }).startSegment p else s

/-- The Meter's work at a boundary in SETTLING: it takes the segment-reset marks and nothing else (R64). -/
def State.meterSettling (s : State) : State := allProgs.foldl State.takeResetMark s

/-- The departure from RUNNING: every programme that is not UNUSED loses its window and its block accumulation (R64). -/
def State.meterDeparture (s : State) : State :=
  { s with meters := Vector.ofFn fun p : Prog =>
      if s.opened p then { s.meters[p] with sum := 0, frames := 0, window := none } else s.meters[p] }

/-! ### The values formed at grant (R56 to R59) -/

/-- The short-term, integrated and blend values of a programme under a relative offset (R56 to R59). -/
def State.measuredValues (s : State) (p : Prog) (offset : Int) : Option Int × Option Int × Option Int :=
  let m := s.meters[p]
  let short := shortTermValue m.ring
  let integrated := integratedValue m.histogram offset
  (short, integrated, if 30 ≤ m.total then integrated else short)

/-- The copy of the short-term and integrated values that a RETUNE, RESCALE or CUE leaves at its grant (R56). -/
def State.copyLast (s : State) (p : Prog) (short integrated : Option Int) : State :=
  s.setMeter p { s.meters[p] with lastShort := short, lastIntegrated := integrated }

/-- WINDOW_COMPLETION (R50, R51): the Meter completes or discards each window of the boundary whose segment starts it holds.
Where it holds none, no window waits and the command changes nothing. -/
def execWindowCompletion (s : State) : Host.Outcome State Fault Refusal := .next s.settleWindows

end Sys2Proof.Machine
end

