-- ==== Sys2Proof/Machine/Engine.lean ====
section
/-! DEFINITION. The Law Engine and its arbiter: the requests that join its sources (PROFILE_EXCHANGE, GAIN_FORCE, GAIN_RELEASE,
PROBE, PARTICIPATE), the command GRANT, and the seven completions (chapter 5, sections 6.4 and 7.2). -/

namespace Sys2Proof.Machine

/-! ### Requests that join a source (R88, R89, R171) -/

/-- A directive joins the tail of the directive queue with the entry reserved for its request, which ends the taking. Its
joining cancels an automatic operation in flight (R88, R99). -/
def State.joinDirective (s : State) (c : Cell) (op : DirectiveOp) (p : Prog) : State :=
  ({ s with
      cells := { s.cells with inHand := none }
      arbiter := { s.arbiter with
        directives := s.arbiter.directives ++ [{ op := op, prog := p, reply := Cell.reply c, abort := false }] } }
    : State).cancelAutomatic

/-- The expected profile of a PROFILE_EXCHANGE: 0xFF is ANY; none where it is above 7 or missing (R88). -/
def Cell.expectedProfile (c : Cell) : Option (Option ProfileNo) :=
  match Cell.operand c 0 with
  | none => none
  | some b => if b = 0xFF then some none else (profileOf b).map some

/-- PROFILE_EXCHANGE with its operand checks in the order of R88. -/
def requestExchange (c : Cell) (s : State) : State :=
  match Cell.programme c, Cell.expectedProfile c, Cell.profileOperand c 1 with
  | none, _, _ => s.answer c .badIndex []
  | some p, some expected, some new => s.joinDirective c (.exchange expected new) p
  | some _, _, _ => s.answer c .badValue []

/-- GAIN_FORCE with its operand checks in the order of R88; a missing snap byte is found after the last of them (R171). -/
def requestForce (c : Cell) (s : State) : State :=
  match Cell.programme c, Cell.gainOperand c 0, Cell.operand c 2 with
  | none, _, _ => s.answer c .badIndex []
  | some p, some gain, some snap => s.joinDirective c (.force gain (markBit snap 0)) p
  | some _, _, _ => s.answer c .badValue []

/-- GAIN_RELEASE with its operand check (R88). -/
def requestRelease (c : Cell) (s : State) : State :=
  match Cell.programme c with
  | none => s.answer c .badIndex []
  | some p => s.joinDirective c .release p

/-- PROBE with its operand checks in the order of R89; a full slot is answered BUSY. Filling the slot cancels nothing. -/
def requestProbe (c : Cell) (s : State) : State :=
  match Cell.programme c, Cell.profileOperand c 0 with
  | none, _ => s.answer c .badIndex []
  | some _, none => s.answer c .badValue []
  | some p, some q =>
    if s.arbiter.probe.isSome then s.answer c .busy []
    else
      { s with
        cells := { s.cells with inHand := none }
        arbiter := { s.arbiter with probe := some { prog := p, profile := q, reply := Cell.reply c, abort := false } } }

/-- PROFILE_EXCHANGE (R88): operand-checked, it joins the directive queue. -/
def execProfileExchange (s : State) : Host.Outcome State Fault Refusal := .next (onRequest 0x0B requestExchange s)
/-- GAIN_FORCE (R88): operand-checked, it joins the directive queue. -/
def execGainForce (s : State) : Host.Outcome State Fault Refusal := .next (onRequest 0x0C requestForce s)
/-- GAIN_RELEASE (R88): operand-checked, it joins the directive queue. -/
def execGainRelease (s : State) : Host.Outcome State Fault Refusal := .next (onRequest 0x0D requestRelease s)
/-- PROBE (R89): operand-checked, it fills the probe slot or is answered BUSY. -/
def execProbe (s : State) : Host.Outcome State Fault Refusal := .next (onRequest 0x0E requestProbe s)

/-! ### PARTICIPATE (R92) -/

/-- What an operand of PARTICIPATE leaves of a flag: 0 OFF, 1 ON, 2 KEEP; none where it is another value or missing. -/
def participation (now : Bool) (operand : Option Byte) : Option Bool :=
  match operand with
  | none => none
  | some b => if b = 0 then some false else if b = 1 then some true else if b = 2 then some now else none

/-- PARTICIPATE: each flag named is set, a set whose flag is off is emptied, and both flags are answered (R92). -/
def setParticipation (c : Cell) (s : State) : State :=
  match participation s.arbiter.retuneOn (Cell.operand c 0), participation s.arbiter.rescaleOn (Cell.operand c 1) with
  | some retune, some rescale =>
    (s.setArbiter { s.arbiter with
          retuneOn := retune, rescaleOn := rescale
          retune := if s.arbiter.retuneOn && !retune then 0 else s.arbiter.retune
          rescale := if s.arbiter.rescaleOn && !rescale then 0 else s.arbiter.rescale }).answer c .done
      [mark retune 0 ||| mark rescale 1]
  | _, _ => s.answer c .badValue []

/-- PARTICIPATE (R92): sets the participation flags. -/
def execParticipate (s : State) : Host.Outcome State Fault Refusal := .next (onRequest 0x11 setParticipation s)

/-! ### Grant and snapshot (R93 to R96, R103) -/

/-- The computation items of a snapshot, with the profile record computed with and the relative offset of the integrated
value (R95, R96). -/
def State.computation (s : State) (p : Prog) (q : Profile) (offset : Int) : Computation :=
  let v := s.measuredValues p offset
  { profile := q, short := v.1, integrated := v.2.1, blend := v.2.2, pressure := s.gains[p].pressure }

/-- An operation is granted: the engine takes its snapshot and, where it evaluates a law, the bank active in that table is
marked in use (R78, R95). -/
def State.beginOperation (s : State) (op : Operation) (p : Prog) (computation : Option Computation) (table : Option TableNo) :
    State :=
  let bank := table.map fun t => (t, s.laws[t].active)
  { s with
    engine := some
      { op := op, prog := p, discard := false, boundaries := 0
        snap := { state := s.progs[p].state, generation := s.progs[p].generation, profile := s.progs[p].profile,
                  target := s.gains[p].target, staged := s.gains[p].staged.length, computation := computation, bank := bank } }
    lawMark := bank }

/-- A RETUNE or RESCALE is granted: it computes with the active profile and leaves a copy of its values (R56, R96). -/
def State.grantAutomatic (s : State) (op : Operation) (p : Prog) : State :=
  let q := s.activeProfile p
  let c := s.computation p q q.relativeOffset
  (s.beginOperation op p (some c) (some q.lawTable)).copyLast p c.short c.integrated

/-- The profile a cue computes with: the one a SWITCH or a SEGMENT carries (R96). -/
def Cue.carried (c : Cue) : Option ProfileNo :=
  match c.kind with
  | .segment | .switch => c.profile
  | .hold | .release | .preset => none

/-- A cue is granted: its entry leaves the queue. It computes with the profile it carries, else with none; its values are formed
with the relative offset of the active profile (R96, R103). -/
def State.grantCue (s : State) (e : Cue) : State :=
  let q := s.activeProfile e.prog
  let c := s.computation e.prog (match e.carried with | some k => s.profiles[k] | none => q) q.relativeOffset
  (((s.setCues (s.cues.erase e)).beginOperation (.cue e) e.prog (some c)
    (e.carried.map fun k => s.profiles[k].lawTable)).copyLast e.prog c.short c.integrated)

/-- A PROBE is granted: it computes with the profile it names and leaves no copy of its values (R56, R96). -/
def State.grantProbe (s : State) (e : ProbeEntry) : State :=
  let q := s.profiles[e.profile]
  (s.setArbiter { s.arbiter with probe := none }).beginOperation (.probe e.profile e.reply) e.prog
    (some (s.computation e.prog q q.relativeOffset)) (some q.lawTable)

/-- The abort-marked directives at the head of the queue are taken and answered ABORTED (R93). -/
def State.abortDirectives (s : State) : State :=
  { s with
    arbiter := { s.arbiter with directives := s.arbiter.directives.dropWhile (·.abort) }
    cells := { s.cells with responses := s.cells.responses ++
      (s.arbiter.directives.takeWhile (·.abort)).map fun d => d.reply.made .aborted d.reply.count [] } }

/-- The member a set grants: the lowest above its pointer, else the lowest (R94). -/
def pickMember (set : ProgSet) (pointer : Option Prog) : Option Prog :=
  let members := allProgs.filter (ProgSet.mem set)
  match pointer with
  | none => members.head?
  | some q => (members.find? fun p => decide (q < p)).or members.head?

/-- A grant from the rescale set, else from the retune set (R93, R94). -/
def State.grantSets (s : State) : State :=
  match pickMember s.arbiter.rescale s.arbiter.rescalePointer, pickMember s.arbiter.retune s.arbiter.retunePointer with
  | some p, _ =>
    (s.setArbiter { s.arbiter with
        rescale := ProgSet.erase s.arbiter.rescale p, rescalePointer := some p }).grantAutomatic .rescale p
  | none, some p =>
    (s.setArbiter { s.arbiter with
        retune := ProgSet.erase s.arbiter.retune p, retunePointer := some p }).grantAutomatic .retune p
  | none, none => s

/-- A grant from the probe slot, else from the sets. An abort-marked PROBE is answered ABORTED and the test goes on (R93). -/
def State.grantProbeOrSets (s : State) : State :=
  match s.arbiter.probe with
  | some e =>
    if e.abort then ((s.setArbiter { s.arbiter with probe := none }).fill e.reply .aborted []).grantSets
    else s.grantProbe e
  | none => s.grantSets

/-- The arbiter's test with the engine idle: it takes the source of highest priority that holds a request (R93, R94). -/
def State.grantNext (s : State) : State :=
  let s := s.abortDirectives
  match s.arbiter.directives, s.cues.find? s.eligible with
  | d :: rest, _ =>
    (s.setArbiter { s.arbiter with directives := rest }).beginOperation (.directive d.op d.reply) d.prog
      none none
  | [], some e => s.grantCue e
  | [], none => s.grantProbeOrSets

/-- GRANT (R93): with the engine idle the arbiter grants the next operation. With an operation in flight nothing is granted. -/
def execGrant (s : State) : Host.Outcome State Fault Refusal := .next (if s.engine.isNone then s.grantNext else s)

/-! ### What a law proposes (R102) -/

/-- The steps of R102 from the measured value on: the deviation, the law gain, the gain clamped to a stored range, and whether
the tolerance (step 4) and the pressure (step 6) both let the change through. -/
structure Proposal where
  deviation : Int
  lawGain : Int
  clamped : Int
  changes : Bool
  deriving DecidableEq, Repr

/-- The measured value that a basis selects (R102, step 1). -/
def Computation.measured (c : Computation) : Option Int :=
  match c.profile.basis with
  | .short => c.short
  | .segment => c.integrated
  | .blend => c.blend

/-- A bank of a table by its letter. -/
def LawTable.bank (t : LawTable) : Bank → LawBank
  | .a => t.bankA
  | .b => t.bankB

/-- Steps 1 to 6 of R102 on a snapshot, with the clamp range of the profile given as stored: none where the operation marked no
bank or the selected value is absent. -/
def State.propose (s : State) (snap : Snapshot) (stored : Profile) : Option Proposal :=
  match snap.computation, snap.bank with
  | some c, some (table, letter) =>
    c.measured.map fun v =>
      let deviation := v - c.profile.target
      let lawGain := (s.laws[table].bank letter).gainAt deviation
      let clamped := clampGain stored.gainMin stored.gainMax lawGain
      { deviation := deviation, lawGain := lawGain, clamped := clamped
        changes := decide (c.profile.tolerance < (lawGain - snap.target).natAbs) &&
          !(c.pressure && decide (snap.target < clamped)) }
  | _, _ => none

/-- The gain that steps 1 to 6 of R102 arrive at, or none where they make no change. -/
def State.proposedGain (s : State) (snap : Snapshot) (stored : Profile) : Option Int :=
  ((s.propose snap stored).filter (·.changes)).map (·.clamped)

/-! ### Completions (R98) -/

/-- A discarded operation makes none of its effects; a directive or PROBE is answered ABORTED (R98). -/
def State.discardOperation (s : State) (op : Operation) : State :=
  match op with
  | .directive _ r | .probe _ r => s.fill r .aborted []
  | .retune | .rescale | .cue _ => s

/-- A completion: the effects, or the discard, and then the mark is cleared and the engine idle (R98). -/
def State.finish (s : State) (f : InFlight) (effects : InFlight → State → State) : State :=
  (if f.discard then s.discardOperation f.op else effects f s).idleEngine

/-- The completion rows of the table: the operation in flight completes where it is of the row's kind. Without such an
operation the row's event does not occur and the command changes nothing: assumption 8. -/
def onEngine (isKind : Operation → Bool) (effects : InFlight → State → State) (s : State) : State :=
  match s.engine with
  | some f => if isKind f.op then s.finish f effects else s
  | none => s

/-- The effects of a RETUNE or RESCALE: discarded and re-entered where the generation differs, discarded where the snapshot
found staged entries, else a set-target claim where R102 makes a change (R101, R102). -/
def completeAutomatic (f : InFlight) (s : State) : State :=
  if s.progs[f.prog].generation ≠ f.snap.generation then s.reenter f.op f.prog
  else if f.snap.staged ≠ 0 then s
  else
    match s.proposedGain f.snap (s.activeProfile f.prog) with
    | some g => s.setTarget f.prog g
    | none => s

/-- A staged entry inserted after every entry whose application boundary is at or before its own (R141). -/
def insertStaged (new : Staged) : List Staged → List Staged
  | [] => [new]
  | e :: rest => if atOrBefore e.boundary new.boundary then e :: insertStaged new rest else new :: e :: rest

/-- The gain part of a cue: a staged-entry claim for its due block + 128, with its late mark (R104, R130). -/
def State.stage (s : State) (e : Cue) (gain : Option Int) (snap : Bool) : State :=
  let entry : Staged := { boundary := e.block + 128, kind := e.kind, gain := gain, snap := snap, late := e.late }
  s.setGains (if s.opened e.prog then
        s.gains.set e.prog { s.gains[e.prog] with staged := insertStaged entry s.gains[e.prog].staged }
      else s.gains)

/-- The profile part of a cue that carries a profile (R104). -/
def State.profilePart (s : State) (e : Cue) : State :=
  match e.carried with
  | some q => s.setProfile e.prog q
  | none => s

/-- The gain a SWITCH or a SEGMENT carrying a profile computes on a TRACKING programme (R105). -/
def State.computedGain (s : State) (e : Cue) (snap : Snapshot) : Option Int :=
  match e.carried with
  | some q => s.proposedGain snap s.profiles[q]
  | none => none

/-- The parts of a SEGMENT cue, by the programme's state (R129). -/
def completeSegment (e : Cue) (snap : Snapshot) (s : State) : State :=
  match s.progs[e.prog].state with
  | .unused => s
  | .dormant | .held =>
    if e.gain.isSome || e.snap then (s.profilePart e).stage e e.gain e.snap else s.profilePart e
  | .tracking =>
    let gain := e.gain.or (s.computedGain e snap)
    if gain.isSome || e.snap then (s.profilePart e).stage e gain e.snap else s.profilePart e
  | .overridden => if e.gain.isSome || e.snap then (s.profilePart e).skipCue e.prog else s.profilePart e

/-- The parts of a SWITCH cue, by the programme's state (R129). -/
def completeSwitch (e : Cue) (snap : Snapshot) (s : State) : State :=
  match s.progs[e.prog].state with
  | .unused => s
  | .dormant | .held => s.profilePart e
  | .tracking =>
    match s.computedGain e snap with
    | some g => (s.profilePart e).stage e (some g) false
    | none => s.profilePart e
  | .overridden => (s.profilePart e).skipCue e.prog

/-- The parts of a HOLD cue, by the programme's state (R129, R132). -/
def completeHold (e : Cue) (s : State) : State :=
  match s.progs[e.prog].state with
  | .unused => s
  | .dormant | .tracking | .held => (s.moveTo e.prog .held).stage e none false
  | .overridden => s.skipCue e.prog

/-- The parts of a RELEASE cue, by the programme's state (R129, R132). -/
def completeRelease (e : Cue) (s : State) : State :=
  match s.progs[e.prog].state with
  | .unused => s
  | .held => (s.moveTo e.prog s.progs[e.prog].presence.released).requestRetune e.prog
  | .dormant | .tracking | .overridden => s.skipCue e.prog

/-- The parts of a PRESET cue, by the programme's state (R129). -/
def completePreset (e : Cue) (s : State) : State :=
  match s.progs[e.prog].state with
  | .unused => s
  | .dormant | .tracking | .held => s.stage e e.gain e.snap
  | .overridden => s.skipCue e.prog

/-- The effects of a cue (R104, R129). A cue in flight never finds its programme UNUSED without the discard mark (R37). -/
def completeCue (e : Cue) (f : InFlight) (s : State) : State :=
  match e.kind with
  | .segment => completeSegment e f.snap s
  | .switch => completeSwitch e f.snap s
  | .hold => completeHold e s
  | .release => completeRelease e s
  | .preset => completePreset e s

/-- The effects of a PROFILE_EXCHANGE (R106). -/
def completeExchange (expected : Option ProfileNo) (new : ProfileNo) (r : Reply) (p : Prog) (s : State) : State :=
  let old := s.progs[p].profile
  if !s.opened p then s.fill r .badState []
  else if expected = none ∨ expected = some old then
    ((s.setProfile p new).requestRetune p).fill r .done [byteNat old, byteNat new]
  else s.fill r .mismatch [byteNat old]

/-- A gain record after the claims of a GAIN_FORCE, but for the target: the list is emptied, and with snap the request set. -/
def GainRecord.forced (g : GainRecord) (snap : Bool) : GainRecord := { g with staged := [], snap := g.snap || snap }

/-- The effects of a GAIN_FORCE: OVERRIDDEN, out of the sets, the list emptied, the forced target set, the snap requested
(R107, R142). A staged list that falls below 2 entries is told to the Cue Queue (R143). -/
def completeForce (gain : Int) (snap : Bool) (r : Reply) (p : Prog) (s : State) : State :=
  if !s.opened p then s.fill r .badState []
  else
    let s1 := s.moveTo p .overridden
    let s2 := ((s1.setArbiter (s1.arbiter.leave p)).setGain p (s.gains[p].forced snap)).setTarget p gain
    s2.fill r .done (bytesInt s2.gains[p].target ++ [s.progs[p].state.code, byteNat s.gains[p].staged.length])

/-- The effects of a GAIN_RELEASE (R108). -/
def completeGainRelease (r : Reply) (p : Prog) (s : State) : State :=
  if s.progs[p].state = .overridden then
    ((s.moveTo p s.progs[p].presence.released).requestRetune p).fill r .done [s.progs[p].presence.released.code]
  else s.fill r .badState []

/-- The effects of a directive, by its kind. -/
def completeDirective (d : DirectiveOp) (r : Reply) (f : InFlight) (s : State) : State :=
  match d with
  | .exchange expected new => completeExchange expected new r f.prog s
  | .force gain snap => completeForce gain snap r f.prog s
  | .release => completeGainRelease r f.prog s

/-- The payload of a PROBE answered DONE (R109, section 8.12). -/
def probePayload (snap : Snapshot) (c : Computation) (pr : Option Proposal) : List Byte :=
  bytesOptInt c.short ++ bytesOptInt c.integrated ++ bytesOptInt c.blend ++ [snap.state.code, byteNat snap.profile] ++
    bytesInt snap.target ++
    [mark c.pressure 0 ||| mark pr.isNone 1 ||| mark (match pr with | some x => x.changes | none => false) 2] ++
    bytesOptInt (pr.map (·.deviation)) ++ bytesOptInt (pr.map (·.lawGain)) ++ bytesOptInt (pr.map (·.clamped))

/-- The effects of a PROBE: its response and nothing else (R109). -/
def completeProbe (q : ProfileNo) (r : Reply) (f : InFlight) (s : State) : State :=
  if !s.opened f.prog then s.fill r .badState []
  else
    match f.snap.computation with
    | some c => s.fill r .done (probePayload f.snap c (s.propose f.snap s.profiles[q]))
    | none => s

/-- The effects of an operation that is not discarded. -/
def operationEffects (f : InFlight) (s : State) : State :=
  match f.op with
  | .retune | .rescale => completeAutomatic f s
  | .cue e => completeCue e f s
  | .directive d r => completeDirective d r f s
  | .probe q r => completeProbe q r f s

/-- The operation in flight completes, whatever its kind. -/
def State.completeOperation (s : State) : State := onEngine (fun _ => true) operationEffects s

/-- RETUNE completes (R102). -/
def execRetuneCompletion (s : State) : Host.Outcome State Fault Refusal :=
  .next (onEngine (fun op => match op with | .retune => true | _ => false) operationEffects s)
/-- RESCALE completes (R101). -/
def execRescaleCompletion (s : State) : Host.Outcome State Fault Refusal :=
  .next (onEngine (fun op => match op with | .rescale => true | _ => false) operationEffects s)
/-- A cue completes (R129). -/
def execCueCompletion (s : State) : Host.Outcome State Fault Refusal :=
  .next (onEngine (fun op => match op with | .cue _ => true | _ => false) operationEffects s)
/-- PROFILE_EXCHANGE completes (R106). -/
def execProfileExchangeCompletion (s : State) : Host.Outcome State Fault Refusal :=
  .next (onEngine (fun op => match op with | .directive (.exchange _ _) _ => true | _ => false) operationEffects s)
/-- GAIN_FORCE completes (R107). -/
def execGainForceCompletion (s : State) : Host.Outcome State Fault Refusal :=
  .next (onEngine (fun op => match op with | .directive (.force _ _) _ => true | _ => false) operationEffects s)
/-- GAIN_RELEASE completes (R108). -/
def execGainReleaseCompletion (s : State) : Host.Outcome State Fault Refusal :=
  .next (onEngine (fun op => match op with | .directive .release _ => true | _ => false) operationEffects s)
/-- PROBE completes (R109). -/
def execProbeCompletion (s : State) : Host.Outcome State Fault Refusal :=
  .next (onEngine (fun op => match op with | .probe _ _ => true | _ => false) operationEffects s)

end Sys2Proof.Machine
end

