-- ==== Sys2Proof/Machine/Gain.lean ====
section
/-! DEFINITION. The Gain Stage and the peak guard: the six stages of an output-side boundary, the frame check, the applied
gain, and the departure from RUNNING (chapter 7). -/

namespace Sys2Proof.Machine

/-- The applied gain: the current gain less the guard reduction, held at -40.00 dB (R151). -/
def GainRecord.applied (g : GainRecord) : Int := max (-4000) (g.current - 10 * g.reduction)

/-- The largest magnitude of a programme's MEMBER samples over frames (R150). -/
def State.largestMagnitude (s : State) (p : Prog) (frames : List Samples) : Nat :=
  (frames.flatMap fun f => (s.gainedSlots p).map fun i => (f[i] : Sample).toInt.natAbs).foldl max 0

/-! ### Stage 1: staged entries (R145, R146) -/

/-- One applied entry acts on the target and the current gain under the active profile `q` (R146). -/
def GainRecord.applyEntry (q : Profile) (g : GainRecord) (e : Staged) : GainRecord :=
  match e.kind, e.gain with
  | .hold, _ => { g with target := clampGain q.gainMin q.gainMax g.current }
  | _, some v =>
    let target := clampGain q.gainMin q.gainMax v
    { g with target := target, current := if e.snap then target else g.current }
  | _, none => if e.snap then { g with current := g.target } else g

/-- The entries due at a boundary, in list order: those whose application boundary is at or before it (R145). -/
def GainRecord.dueEntries (g : GainRecord) (t : LinkTime) : List Staged := g.staged.filter fun e => atOrBefore e.boundary t

/-- Stage 1: the due entries leave the list and are applied one after another. -/
def GainRecord.applyStaged (q : Profile) (t : LinkTime) (g : GainRecord) : GainRecord :=
  (g.dueEntries t).foldl (GainRecord.applyEntry q) { g with staged := g.staged.filter fun e => !atOrBefore e.boundary t }

/-- Whether an entry is applied after its own application boundary, which claims CUE_LATE (R145). -/
def GainRecord.lateEntry (g : GainRecord) (t : LinkTime) : Bool := (g.dueEntries t).any fun e => before e.boundary t

/-- Whether stage 1 makes a snap: an entry with its snap set counts as one (R146). -/
def GainRecord.entrySnaps (g : GainRecord) (t : LinkTime) : Bool := (g.dueEntries t).any fun e => e.snap

/-! ### Stages 2 and 3: snap and ramp (R147 to R149) -/

/-- Stage 2: a set snap request sets the current gain to the target and is cleared (R147). -/
def GainRecord.takeSnap (g : GainRecord) : GainRecord := if g.snap then { g with current := g.target, snap := false } else g

/-- The steps of 0.01 dB that a slew moves at a boundary of a position in its four-block group (R148). -/
def rampSteps (slew position : Nat) : Nat :=
  slew / 4 +
    match slew % 4, position with
    | 1, 3 | 2, 1 | 2, 3 | 3, 1 | 3, 2 | 3, 3 => 1
    | _, _ => 0

/-- Stage 3: the current gain moves toward the target by the slew of its direction and stops at it (R148, R149). -/
def rampMove (q : Profile) (position : Nat) (current target : Int) : Int :=
  if current < target then min target (current + rampSteps q.raiseSlew position)
  else if target < current then max target (current - rampSteps q.lowerSlew position)
  else current

/-! ### Stages 4 and 6: the guard (R150, R154) -/

/-- Stage 4: the guard reduction rises to the need at once and falls by at most the release, down to the need (R150). -/
def guardStep (need release reduction : Nat) : Nat := if reduction < need then need else max need (reduction - release)

/-- Stage 6: the block is counted into the guard window; a complete window sets or clears pressure and begins anew (R154). -/
def GainRecord.countBlock (q : Profile) (g : GainRecord) : GainRecord :=
  let count := g.guardCount + if 0 < g.reduction then 1 else 0
  if g.guardLength + 1 < 75 then { g with guardLength := g.guardLength + 1, guardCount := count }
  else { g with guardLength := 0, guardCount := 0, pressure := decide (q.pressureThreshold ≤ count) }

/-- The work of one programme at an output-side boundary: the six stages, in order (section 7.3). The applied gain of stage 5
is read from the record whenever it is asked for. At the entry to RUNNING the guard window begins anew before stage 6
(R158). `magnitude` is the largest magnitude of the block's MEMBER samples. -/
def GainRecord.boundaryWork (q : Profile) (t : LinkTime) (entry : Bool) (magnitude : Nat) (g : GainRecord) : GainRecord :=
  let snapped := g.entrySnaps t || g.snap
  let g := (g.applyStaged q t).takeSnap
  let g := { g with current := if snapped then g.current else rampMove q (groupPosition t) g.current g.target }
  let g := { g with reduction := guardStep (guardNeed magnitude g.current q.ceiling) q.guardRelease g.reduction }
  GainRecord.countBlock q (if entry then { g with guardLength := 0, guardCount := 0 } else g)

/-- The gain record of a programme after the work of a boundary: a programme that is UNUSED is not processed (R144). The block
weighed is the 64 frames that leave from this boundary on, which are the oldest 64 of the delay line (R150). -/
def State.gainAfterBoundary (s : State) (t : LinkTime) (entry : Bool) (p : Prog) : GainRecord :=
  if s.opened p then
    s.gains[p].boundaryWork (s.activeProfile p) t entry (s.largestMagnitude p (s.delay.take 64))
  else s.gains[p]

/-- The programmes for which stage 1 of a boundary claims CUE_LATE: an entry is applied late (R145). -/
def State.appliesLate (s : State) (t : LinkTime) : ProgSet := progSetOf fun p => s.opened p && s.gains[p].lateEntry t

/-- The programmes for which stage 6 of a boundary claims GUARD_PRESSURE: the pressure flag goes from clear to set (R154). -/
def State.newlyPressed (s : State) (t : LinkTime) (entry : Bool) : ProgSet :=
  progSetOf fun p => !s.gains[p].pressure && (s.gainAfterBoundary t entry p).pressure

/-- The Gain Stage's work at an output-side boundary in RUNNING, for every programme, but for its claims (R144). A staged list that
falls below 2 entries is told to the Cue Queue (R143). -/
def State.gainBoundary (s : State) (t : LinkTime) (entry : Bool) : State :=
  offerCues s (s.setGains (Vector.ofFn (s.gainAfterBoundary t entry)))

/-! ### The frame check (R152) and the departure from RUNNING (R156) -/

/-- A gain record after the frame check: a need above the reduction raises it (R152). -/
def GainRecord.raiseTo (g : GainRecord) (magnitude : Nat) (ceiling : Int) : GainRecord :=
  { g with reduction := max g.reduction (guardNeed magnitude g.current ceiling) }

/-- The frame check of one frame, for every programme that is not UNUSED (R152). -/
def State.frameCheck (s : State) (frame : Samples) : State :=
  s.setGains (Vector.ofFn fun p : Prog =>
      if s.opened p then (s.gains[p]).raiseTo (s.largestMagnitude p [frame]) (s.activeProfile p).ceiling
      else s.gains[p])

/-- The departure from RUNNING: every programme that is not UNUSED loses its reduction and its partial guard window (R156). -/
def State.gainDeparture (s : State) : State :=
  s.setGains (Vector.ofFn fun p : Prog =>
      if s.opened p then { s.gains[p] with reduction := 0, guardLength := 0, guardCount := 0 } else s.gains[p])

end Sys2Proof.Machine
end

