-- ==== Sys2Proof/Machine/Stores.lean ====
section
/-! DEFINITION. The Profile Store and the Law Store: the commands PROFILE_WRITE, LAW_LOAD and LAW_SWAP, and the swap of a block
boundary (chapter 4). -/

namespace Sys2Proof.Machine

/-! ### PROFILE_WRITE (R70 to R72) -/

/-- An unsigned byte operand as a number. -/
def Cell.operandByte (c : Cell) (i : Nat) : Option Int := (Cell.operand c i).map fun b => (b.toNat : Int)
/-- An unsigned 16-bit operand as a number. -/
def Cell.operandNat16 (c : Cell) (i : Nat) : Option Int := (Cell.operand16 c i).map fun w => (w.toNat : Int)

/-- The sixteen fields of a profile record as a payload carries them, in field order; a field the payload does not complete is
none (R67, R71, section 8.12). -/
def Cell.profileFields (c : Cell) : List (Option Int) :=
  [Cell.operandInt c 0, Cell.operandByte c 2, Cell.operandInt c 3, Cell.operandInt c 5, Cell.operandInt c 7,
   Cell.operandByte c 9, Cell.operandNat16 c 10, Cell.operandByte c 12, Cell.operandInt c 13, Cell.operandInt c 15,
   Cell.operandInt c 17, Cell.operandByte c 19, Cell.operandByte c 20, Cell.operandInt c 21, Cell.operandByte c 23,
   Cell.operandByte c 24]

/-- The value of field `n` of a list of fields, 0 where it is missing. -/
def fieldValue (fields : List (Option Int)) (n : Nat) : Int := (fields.getD (n - 1) none).getD 0

/-- The range of each field, in field order, in counts of its step (R67). -/
def fieldRanges : List (Int × Int) :=
  [(-400, -100), (0, 2), (-700, -300), (-200, -10), (-700, -200), (1, 255), (0, 300), (0, 3), (-4000, 2000), (-4000, 2000),
   (-4000, 2000), (0, 255), (0, 255), (-200, 0), (1, 50), (1, 75)]

/-- Whether field `n` passes: it is present, in its range, and in its relation with earlier fields (R71). -/
def fieldPasses (fields : List (Option Int)) (n : Nat) : Bool :=
  let range := fieldRanges.getD (n - 1) (0, 0)
  match fields.getD (n - 1) none with
  | none => false
  | some v =>
    decide (range.1 ≤ v) && decide (v ≤ range.2) &&
      (n != 10 || decide (fieldValue fields 9 ≤ v)) &&
      (n != 11 || (decide (fieldValue fields 9 ≤ v) && decide (v ≤ fieldValue fields 10)))

/-- The first field that fails, checked from field 1 to field 16 (R71). -/
def firstBadField (fields : List (Option Int)) : Option Nat :=
  ((List.range 16).map (· + 1)).find? fun n => !fieldPasses fields n

/-- The basis of a code. -/
def basisOf (v : Int) : Basis := if v = 0 then .short else if v = 1 then .segment else .blend

/-- The record of fields that all pass. -/
def profileRecord (fields : List (Option Int)) : Profile :=
  let v := fieldValue fields
  { target := v 1, basis := basisOf (v 2), absoluteGate := v 3, relativeOffset := v 4, presenceThreshold := v 5,
    silenceWindows := (v 6).toNat, tolerance := v 7, lawTable := (tableOf (v 8).toNat).getD 0, gainMin := v 9, gainMax := v 10,
    initialGain := v 11, raiseSlew := (v 12).toNat, lowerSlew := (v 13).toNat, ceiling := v 14, guardRelease := (v 15).toNat,
    pressureThreshold := (v 16).toNat }

/-- PROFILE_WRITE with its checks in the order of R70. -/
def writeProfile (c : Cell) (s : State) : State :=
  match profileOf (Cell.byte c 5) with
  | none => s.answer c .badIndex []
  | some q =>
    match allProgs.find? fun p => s.opened p && s.progs[p].profile == q with
    | some p => s.answer c .badState [byteNat p]
    | none =>
      match firstBadField (Cell.profileFields c) with
      | some n => s.answer c .badValue [byteNat n]
      | none => (s.setProfiles (s.profiles.set q (profileRecord (Cell.profileFields c)))).answer c .done []

/-- PROFILE_WRITE (R70): replaces a profile record that is not in use. -/
def execProfileWrite (s : State) : Host.Outcome State Fault Refusal := .next (onRequest 0x03 writeProfile s)

/-! ### Law tables (R75) -/

/-- The other bank. -/
def Bank.other : Bank → Bank
  | .a => .b
  | .b => .a

/-- The shadow bank of a table. -/
def LawTable.shadow (t : LawTable) : LawBank :=
  match t.active with
  | .a => t.bankB
  | .b => t.bankA

/-- The active bank of a table. -/
def LawTable.activeBank (t : LawTable) : LawBank :=
  match t.active with
  | .a => t.bankA
  | .b => t.bankB

/-- A table with its shadow bank replaced. -/
def LawTable.setShadow (t : LawTable) (b : LawBank) : LawTable :=
  match t.active with
  | .a => { t with bankB := b }
  | .b => { t with bankA := b }

/-- A table after the boundary that swaps it (R83). -/
def LawTable.swap (t : LawTable) : LawTable := if t.pending then { t with active := t.active.other, pending := false } else t

/-! ### LAW_LOAD (R79, R80) -/

/-- The points of a load, as the payload carries them. -/
def Cell.loadPoints (c : Cell) : List (Option LawPoint) :=
  (List.range (Cell.count c)).map fun i =>
    match Cell.operandInt c (4 * i), Cell.operandInt c (4 * i + 2) with
    | some d, some g => some ⟨d, g⟩
    | _, _ => none

/-- Whether a point is in range (R75). -/
def LawPoint.inRange (p : LawPoint) : Bool := decide (-400 ≤ p.deviation) && decide (p.deviation ≤ 400) && gainInRange p.gain

/-- The bank index of the first point of a load that is out of range, given the index of the first point. -/
def firstBadPoint : List (Option LawPoint) → Nat → Option Nat
  | [], _ => none
  | some p :: rest, k => if p.inRange then firstBadPoint rest (k + 1) else some k
  | none :: _, k => some k

/-- The new point count of a load: the byte that follows the points, where the payload holds one (R79). -/
def Cell.newCount (c : Cell) : Option Nat := (Cell.operand c (4 * Cell.count c)).map (·.toNat)

/-- A bank after a load of points from an index on, and of a point count where one is carried (R80). -/
def LawBank.load (b : LawBank) (first : Nat) (points : List (Option LawPoint)) (count : Option Nat) : LawBank :=
  { points := Vector.ofFn fun k : Fin 32 =>
      if first ≤ k then ((points.getD (k - first) none).getD b.points[k]) else b.points[k]
    count := count.getD b.count }

/-- LAW_LOAD with its checks in the order of R79. -/
def loadLaw (c : Cell) (s : State) : State :=
  match tableOf (Cell.target c) with
  | none => s.answer c .badIndex []
  | some t =>
    let n := Cell.count c
    let first := Cell.index c
    if n < 1 ∨ 8 < n ∨ Cell.payloadLength c < 4 * n then s.answer c .badValue []
    else if 32 < first + n then s.answer c .badIndex []
    else
      match firstBadPoint (Cell.loadPoints c) first, (Cell.newCount c).filter (fun k => decide (32 < k)) with
      | some k, _ => s.answer c .badValue [byteNat k]
      | none, some _ => s.answer c .badValue [0xFF]
      | none, none =>
        if s.laws[t].pending then s.answer c .busy []
        else if s.lawMark = some (t, s.laws[t].active.other) then s.answer c .busy []
        else
          let shadow := s.laws[t].shadow.load first (Cell.loadPoints c) (Cell.newCount c)
          (s.setLaws (s.laws.set t (s.laws[t].setShadow shadow))).answer c .done []

/-- LAW_LOAD (R79): writes points into a table's shadow bank. -/
def execLawLoad (s : State) : Host.Outcome State Fault Refusal := .next (onRequest 0x04 loadLaw s)

/-! ### LAW_SWAP (R82) -/

/-- The four law tables, in number order. -/
def allTables : List TableNo := List.finRange 4

/-- LAW_SWAP with its checks in the order of R82. A missing set is answered BAD_VALUE: assumption 9. -/
def swapLaws (c : Cell) (s : State) : State :=
  match Cell.operand c 0 with
  | none => s.answer c .badValue []
  | some set =>
    let named : List TableNo := allTables.filter fun t : TableNo => set.getLsbD t
    if set = 0 then s.answer c .badValue []
    else if set.extractLsb' 4 4 ≠ 0 then s.answer c .badIndex []
    else
      match named.find? (fun t => s.laws[t].pending), named.find? (fun t => !s.laws[t].shadow.valid) with
      | some t, _ => s.answer c .busy [byteNat t]
      | none, some t => s.answer c .badValue [byteNat t, byteNat (s.laws[t].shadow.firstBad.getD 0)]
      | none, none =>
        (s.setLaws (Vector.ofFn fun t : TableNo =>
            if set.getLsbD t then { s.laws[t] with pending := true } else s.laws[t])).answer c .done []

/-- LAW_SWAP (R82): marks tables swap-pending for the next block boundary. -/
def execLawSwap (s : State) : Host.Outcome State Fault Refusal := .next (onRequest 0x05 swapLaws s)

/-! ### The swap of a block boundary (R83, R84) -/

/-- The programmes a swap raises a rescale request for: those TRACKING whose active profile names a table that is swapped
(R84). -/
def State.swapRescales (s : State) : ProgSet := progSetOf fun p => s.tracking p && s.laws[(s.activeProfile p).lawTable].pending

/-- Whether a boundary swaps a table, which claims SWAP_DONE (R83). -/
def State.swapPending (s : State) : Bool := allTables.any fun t => s.laws[t].pending

/-- The Law Store's work at a block boundary in SETTLING or RUNNING, but for its claim: every pending table is swapped, and rescale
requests are raised (R83, R84, R91). -/
def State.swapBoundary (s : State) : State :=
  { s with
    laws := Vector.ofFn fun t : TableNo => (s.laws[t]).swap
    arbiter := { s.arbiter with
      rescale := if s.arbiter.rescaleOn then s.arbiter.rescale ||| s.swapRescales else s.arbiter.rescale } }

end Sys2Proof.Machine
end

