-- ==== Sys2Proof/Machine/Link.lean ====
section
/-! DEFINITION. The Link Receiver and the Link Transmitter: the commands PIN_RESET, INBOUND_FRAME, REFERENCE_FRAME_PERIOD and
MISSING_FRAME_TIMEOUT (chapter 1), with the block boundary an inbound frame can mark. -/

namespace Sys2Proof.Machine

/-! ### The outbound superframe (R18 to R21, R174, R186, R187) -/

/-- A notice as it is built at this moment (R187). -/
def State.builtNotice (s : State) : MadeCell :=
  { destination := s.notice.destination, kind := 0xF0, status := 0, tag := 0, target := 0, index := 0, count := 0
    payload := bytes16 s.notice.word ++ bytes16 s.differing ++ bytes16 s.pressureSet ++ [byteNat s.cues.length] }

/-- The cell chosen for an outbound superframe, with its source: a notice that is owed, else the head of the forward queue, else
the oldest completed response, else an idle cell (R174). -/
def State.chooseCell (s : State) : Cell × CellSource :=
  if s.notice.state ≠ .none then (s.builtNotice.toCell s.address, .notice)
  else
    match s.cells.forward, s.cells.responses with
    | c :: _, _ => (c, .forward)
    | [], m :: _ => (m.toCell s.address, .response)
    | [], [] => (idleCell.toCell s.address, .idle)

/-- The start of an outbound superframe of the given link time: its header follows the lock state as it stands (R20), and its
cell is chosen and copied (R21, R174, R186). -/
def State.startOutbound (s : State) (time : LinkTime) : State :=
  { s with
    tx :=
      { time := time
        absent := s.rx.lock == .search || s.rx.lock == .confirm
        bypass := s.rx.lock == .settling
        hop := if s.rx.lock = .running then s.address else s.rx.hop
        cell := s.chooseCell.1, source := s.chooseCell.2, sent := 0 }
    notice := { s.notice with state := s.notice.state.start } }

/-- The sent report for an outbound superframe: the source of its cell removes it, if it still holds it (R21, R169, R172,
R186). -/
def State.sentReport (s : State) (source : CellSource) : State :=
  match source with
  | .idle | .gone => s
  | .notice => s.setNotice { s.notice with state := s.notice.state.report }
  | .forward => s.setCells { s.cells with forward := s.cells.forward.drop 1 }
  | .response => s.setCells { s.cells with responses := s.cells.responses.drop 1 }

/-- The source that a sent report is due for when the next frame has been sent: that of a superframe of which fifteen frames have
been sent. -/
def State.reportDue (s : State) : Option CellSource := if s.tx.sent = 15 then some s.tx.source else none

/-- Whether the outbound superframe has frames still to send. -/
def State.outboundInProgress (s : State) : Bool := decide (s.tx.sent < 16)

/-- An outbound frame is sent with the next service word of the superframe in progress. Between the end of a superframe and the
next start in SETTLING the word is not stated: assumption 2. -/
def State.sendFrame (s : State) (samples : Samples) : State :=
  if s.tx.sent < 16 then
    { s with sent := some ⟨samples, s.tx.word s.tx.sent⟩, tx := { s.tx with sent := s.tx.sent + 1 } }
  else { s with sent := some ⟨samples, Config.gapServiceWord s.fresh⟩, fresh := s.fresh + 1 }

/-! ### Outbound samples (R17) -/

/-- The outbound sample of a slot in SETTLING and RUNNING, from the sample that leaves the delay line (R17). -/
def State.outSample (s : State) (i : SlotNo) (x : Sample) : Sample :=
  match s.slots[i] with
  | .mute => 0
  | .member p _ => if s.rx.lock = .running then gainSample x s.gains[p].applied else x
  | .pass | .measure _ _ => x

/-- The samples of an outbound frame in SETTLING and RUNNING. -/
def State.outSamples (s : State) (leaving : Samples) : Samples := Vector.ofFn fun i : SlotNo => s.outSample i leaving[i]

/-! ### The receiver's own updates -/

/-- The receiver with other service words of the superframe in progress. -/
def Receiver.setWords (r : Receiver) (words : List ServiceWord) : Receiver := { r with words := words }
/-- The receiver after an inbound frame: the count of reference periods starts again from 0 (R9). -/
def Receiver.heard (r : Receiver) : Receiver := { r with periods := 0, timeouts := 0 }
/-- The receiver after one more reference period without an inbound frame (R9). -/
def Receiver.passPeriod (r : Receiver) : Receiver := { r with periods := r.periods + 1 }
/-- The receiver after a header error of missing frames has been taken (R9). -/
def Receiver.passTimeout (r : Receiver) : Receiver := { r with timeouts := r.timeouts + 1 }
/-- The receiver after a header error: the run is incremented and a candidate dropped (R7). -/
def Receiver.takeError (r : Receiver) : Receiver := { r with errorRun := r.errorRun + 1, slip := none, header := .error }
/-- The receiver after a valid header, but for what the link time in it changes (R2, R7). -/
def Receiver.takeValid (r : Receiver) (hop : Byte) : Receiver := { r with errorRun := 0, header := .valid, hop := hop }

/-! ### Losing the lock (R8, R9) -/

/-- The receiver as it stands in SEARCH after a return to it: it holds no structure, time, candidate or count; the last inbound
hop address is kept (R4, R8). -/
def Receiver.toSearch (r : Receiver) : Receiver := { Receiver.reset with hop := r.hop }

/-- The lock is lost: SEARCH, LINK_LOST claimed, and a departure from RUNNING handed to the Meter and the Gain Stage (R8). -/
def State.loseLock (s : State) : State :=
  let s1 := if s.rx.lock = .running then s.meterDeparture.gainDeparture else s
  (s1.setRx s.rx.toSearch).claim .linkLost

/-- A header error taken in SETTLING or RUNNING: counted in HEADER_ERRORS and in the run, any candidate dropped, the cell of the
superframe discarded; a run of 2 loses the lock (R7, R8). -/
def State.headerError (s : State) : State :=
  let s1 := (s.setRx s.rx.takeError).setCells { s.cells with headerErrors := countUp s.cells.headerErrors }
  if 2 ≤ s.rx.errorRun + 1 then s1.loseLock else s1

/-! ### Missing frames (R9) -/

/-- The count of reference periods at which the next header error is taken: 24, then 16 more. -/
def Receiver.nextTimeout (r : Receiver) : Nat := 24 + 16 * r.timeouts

/-- The header error of missing frames: CONFIRM returns to SEARCH; SETTLING and RUNNING take a header error (R9). -/
def State.takeTimeout (s : State) : State :=
  match s.rx.lock with
  | .search => s
  | .confirm => s.setRx s.rx.toSearch
  | .settling | .running => (s.setRx s.rx.passTimeout).headerError

/-- A header error that has come due is taken before the next frame or period: assumption 10. -/
def State.takeOwedTimeout (s : State) : State := if s.rx.nextTimeout ≤ s.rx.periods then s.takeTimeout else s

/-- The local link time of the next outbound superframe on the reference clock (R18). -/
def State.nextLocalTime (s : State) : LinkTime := s.tx.time + 16

/-- A silent outbound frame on the reference clock, which begins a new superframe on the local link time where none is in
progress, with the sent report after service word 15 (R18, R21). -/
def State.sendSilence (s : State) : State :=
  let s1 := if s.outboundInProgress then s else s.startOutbound s.nextLocalTime
  let s2 := s1.sendFrame silence
  match s1.reportDue with
  | some source => s2.sentReport source
  | none => s2

/-- One reference-clock frame period: it is counted outside SEARCH (R9), and in SEARCH and CONFIRM it sends one silent frame
(R18). -/
def State.onePeriod (s : State) : State :=
  match s.rx.lock with
  | .search => s.sendSilence
  | .confirm => (s.setRx s.rx.passPeriod).sendSilence
  | .settling | .running => s.setRx s.rx.passPeriod

/-- REFERENCE_FRAME_PERIOD (R18): one period of the reference clock passes. -/
def execReferenceFramePeriod (s : State) : Host.Outcome State Fault Refusal := .next s.takeOwedTimeout.onePeriod

/-- So many periods pass, one after another. -/
def State.passPeriods (s : State) : Nat → State
  | 0 => s
  | n + 1 => s.onePeriod.passPeriods n

/-- The periods up to the next header error of R9 pass, and it is taken. In SEARCH the count is not kept. -/
def missFrames (s : State) : State :=
  if s.rx.lock = .search then s else (s.passPeriods (s.rx.nextTimeout - s.rx.periods)).takeTimeout

/-- MISSING_FRAME_TIMEOUT (R9): 24 periods, then 16 more, have passed without an inbound frame. -/
def execMissingFrameTimeout (s : State) : Host.Outcome State Fault Refusal := .next (missFrames s)

/-! ### The block boundary (R13, R97) -/

/-- What must have happened before the boundary is marked: the Meter completes the windows of the boundary before (R51), and an
operation that has seen one boundary since its grant completes (R97): assumption 11. The windows first, then the operation, is the
model's choice, since R53 and R97 leave the order open: assumption 29. -/
def State.settleBeforeBoundary (s : State) : State :=
  let s1 := s.settleWindows
  match s1.engine with
  | some f => if 1 ≤ f.boundaries then s1.completeOperation else s1
  | none => s1

/-- The engine counts a boundary marked since its grant (R97). -/
def State.countBoundary (s : State) : State :=
  { s with engine := s.engine.map fun f : InFlight => { f with boundaries := f.boundaries + 1 } }

/-- The work of a block boundary in every block that takes it, but for its claims (R13): the Law Store, the Law Engine's bound, and
in RUNNING the Cue Queue, the Meter and the Gain Stage, in SETTLING the Meter alone. -/
def State.boundaryWork (s : State) (t : LinkTime) (entry : Bool) : State :=
  let s1 := s.swapBoundary.countBoundary
  if s1.rx.lock = .running then ((s1.dueCheck t).meterBoundary (s1.cueStarts t) entry).gainBoundary t entry else s1.meterSettling

/-- What the work of a block boundary claims: in SETTLING the Law Store alone, in RUNNING the Cue Queue and the Gain Stage too. -/
def State.boundaryClaims (s : State) (t : LinkTime) (entry : Bool) : BoundaryClaims :=
  if s.rx.lock = .running then
    { swap := s.swapPending, due := s.dueLate t, staged := s.appliesLate t, pressed := s.newlyPressed t entry }
  else { swap := s.swapPending, due := false, staged := 0, pressed := 0 }

/-- The part as the choice of the outbound cell finds it at a block boundary, under an order of the boundary's work and the choice:
the claims that come first have been taken, and the pressure flags that stage 6 has moved first stand as it leaves them. -/
def State.atChoice (s worked : State) (claims : BoundaryClaims) (o : BoundaryOrder) : State :=
  { s with
    gains := Vector.ofFn fun p : Prog =>
      if ProgSet.mem o.stagedFirst p && ProgSet.mem o.guardFirst p then worked.gains[p] else s.gains[p]
    notice := s.notice.takeClaims (claims.before o) }

/-- A superframe start that is a block boundary: the boundary's work is done, and the outbound superframe begins amid its claims, in
the order given (R13, R18, R190). -/
def State.startBoundary (s : State) (t : LinkTime) (entry : Bool) (o : BoundaryOrder) : State :=
  let worked := s.boundaryWork t entry
  let claims := s.boundaryClaims t entry
  let started := (s.atChoice worked claims o).startOutbound t
  { worked with tx := started.tx, notice := started.notice.takeClaims claims }

/-- Whether the order of a boundary's work and the choice of the outbound cell can be seen: its claims change the Notice Unit, or a
notice is owed and the work changes the pressure set it carries. -/
def State.boundaryOrderSeen (s : State) (t : LinkTime) (entry : Bool) : Bool :=
  s.notice.takeClaims (s.boundaryClaims t entry) != s.notice ||
    (s.notice.state != .none && (s.boundaryWork t entry).pressureSet != s.pressureSet)

/-- The order in which the choice of the outbound cell comes before all of the boundary's work. -/
def choiceFirst : BoundaryOrder := { swapFirst := false, dueFirst := false, stagedFirst := 0, guardFirst := 0 }

/-! ### The superframe start (R6, R10) -/

/-- The receiver at a superframe start: the expected link time is assigned, the settle count moves on in SETTLING, and RUNNING is
entered where the settle length has been reached on a multiple of 64. -/
def Receiver.startSuperframe (r : Receiver) (settleLength : Nat) (w : ServiceWord) : Receiver :=
  let t := r.expected.getD 0
  let settle := r.settle.map fun n => min 1024 (n + 1)
  let enters := r.lock == .settling && decide (settleLength ≤ settle.getD 0) && onBlock t
  { r with words := [w], header := .unchecked, time := t, expected := some (t + 16)
           lock := if enters then .running else r.lock
           settle := if enters then none else settle }

/-- The arrival of frame 0 in SETTLING and RUNNING: a superframe begins, inbound and outbound, with a block boundary where its
link time is a multiple of 64 (R6, R10, R13, R18). Where the order of the boundary's work and the choice of the cell can be
seen, R190 leaves it open and a free value gives it: assumption 4. -/
def State.startSuperframe (s : State) (w : ServiceWord) : State :=
  let t := s.rx.expected.getD 0
  let s1 := if onBlock t then s.settleBeforeBoundary else s
  let s2 : State := s1.setRx (s1.rx.startSuperframe (settleLength s.straps) w)
  let entry := s.rx.lock != s2.rx.lock
  if onBlock t then
    if s2.boundaryOrderSeen t entry then s2.draw.startBoundary t entry (Config.boundaryOrder s2.fresh)
    else s2.startBoundary t entry choiceFirst
  else s2.startOutbound t

/-! ### The header check (R7, R11, R12) -/

/-- A valid header of link time `t` in SETTLING or RUNNING: the run is cleared, the hop address recorded, and the candidate
dropped, adopted or replaced. -/
def State.validHeader (s : State) (hop : Byte) (t : LinkTime) : State :=
  let r := s.rx.takeValid hop
  if t = s.rx.time then s.setRx { r with slip := none }
  else if s.rx.slip.map (· + 16) = some t then
    (s.setRx { r with slip := none, expected := some (t + 16) }).claim .timeSlip
  else s.setRx { r with slip := some t }

/-- The arrival of frame 1 in SETTLING and RUNNING: the header is checked, unless the superframe has been taken as a header error
already (R7, R9). -/
def State.checkHeader (s : State) (w0 w1 : ServiceWord) : State :=
  let s1 : State := s.setRx (s.rx.setWords [w0, w1])
  if s.rx.header = .error then s1
  else if headerValid w0 w1 then s1.validHeader (hopOf w0) w1
  else s1.headerError

/-! ### The frame through the delay line (R16, R17, R47, R152) -/

/-- The frame enters the delay line, from which the oldest leaves, and the weighting filters (R16, R47). -/
def State.carryFrame (s : State) (samples : Samples) : State :=
  { s with delay := s.delay.drop 1 ++ [samples], filterInput := samples :: s.filterInput }

/-- The sent report and the arriving cell of one frame. Where the cell comes for a forward queue that is full and whose head the
report removes, R175 leaves the order open and a free value decides: assumption 5. A cell for a full request queue is dropped even where
the report of a response makes the taking of that queue's head possible; that the taking comes after the arrival, by REQUEST_TAKE, is
the model's choice, since R175 allows either: assumption 31. -/
def State.reportAndArrive (s : State) (report : Option CellSource) (arrival : Option Cell) : State :=
  match report, arrival with
  | none, none => s
  | some source, none => s.sentReport source
  | none, some c => s.arriveCell c
  | some source, some c =>
    if source = .forward ∧ queueLimit ≤ s.cells.forward.length ∧ s.forwards c then
      let s1 := s.draw
      if Config.arrivalFirst s.fresh then (s1.arriveCell c).sentReport source else (s1.sentReport source).arriveCell c
    else (s.arriveCell c).sentReport source

/-- The rest of a frame's arrival in SETTLING and RUNNING, once the receiver has acted on it: the frame passes through the delay
line, the Meter takes it and the frame check weighs the frame that leaves, in RUNNING; the outbound frame is formed and sent;
at frame 15 the cell of a superframe whose header was valid is handed on (R15 to R18, R47, R152). -/
def State.passFrame (s : State) (samples : Samples) : State :=
  let leaving := s.delay.headD silence
  let s1 := s.carryFrame samples
  let s2 := if s.rx.lock = .running then s1.accumulate.frameCheck leaving else s1
  let s3 := s2.sendFrame (s2.outSamples leaving)
  s3.reportAndArrive s2.reportDue
    (if s.rx.words.length = 16 ∧ s.rx.header = .valid then some (cellOfWords s.rx.words) else none)

/-! ### SEARCH and CONFIRM (R3 to R5) -/

/-- A frame examined as a possible frame 0 (R3). -/
def State.examineFrame (s : State) (w : ServiceWord) : State :=
  s.setRx { s.rx with possible := if hasSync w then some w else none }

/-- The entry to CONFIRM: the header of the possible frame 0 is accepted, the delay line and the filters are cleared (R3, R4,
R47). -/
def State.enterConfirm (s : State) (w0 w1 : ServiceWord) : State :=
  { s with
    rx := { Receiver.reset with lock := .confirm, words := [w0, w1], header := .valid, time := w1, hop := hopOf w0 }
    delay := silentDelay, filterInput := [] }

/-- A frame in SEARCH (R3). The frame whose link time completes a valid header takes the receiver into CONFIRM and is written:
assumption 12. -/
def State.searchFrame (s : State) (f : Frame) : State :=
  match s.rx.possible with
  | some w0 =>
    if onSuperframe f.service then (s.enterConfirm w0 f.service).carryFrame f.samples else s.examineFrame f.service
  | none => s.examineFrame f.service

/-- The entry to SETTLING at a confirming header of link time `t` (R5). -/
def Receiver.enterSettling (r : Receiver) (w0 w1 : ServiceWord) : Receiver :=
  { r with lock := .settling, words := [w0, w1], header := .valid, time := w1, expected := some (w1 + 16), slip := none
           settle := some 0, errorRun := 0, hop := hopOf w0 }

/-- The second header in CONFIRM confirms the lock, or returns the receiver to SEARCH. The hop address of a valid header is
recorded either way (R2, R4). -/
def State.secondHeader (s : State) (w0 : ServiceWord) (f : Frame) : State :=
  if headerValid w0 f.service then
    if f.service = s.rx.time + 16 then
      (s.setRx (s.rx.enterSettling w0 f.service)).carryFrame f.samples
    else s.setRx { s.rx.toSearch with hop := hopOf w0 }
  else s.setRx s.rx.toSearch

/-- A frame in CONFIRM (R4). No outbound frame is sent for it: those of CONFIRM run on the reference clock (R18). -/
def State.confirmFrame (s : State) (f : Frame) : State :=
  if s.rx.words.length = 16 then (s.setRx (s.rx.setWords [f.service])).carryFrame f.samples
  else
    match s.rx.words with
    | [w0] => s.secondHeader w0 f
    | _ => (s.setRx (s.rx.setWords (s.rx.words ++ [f.service]))).carryFrame f.samples

/-! ### INBOUND_FRAME (R1) -/

/-- A frame in SETTLING and RUNNING: frame 0 begins a superframe, frame 1 brings the header check, and the frame then passes
through the part unless the check has ended the lock (R6, R7, R8). For the frame whose header ends the lock no outbound frame is
sent, and it is not written: the model's reading of R18 and R16, assumptions 27 and 12. -/
def State.heldFrame (s : State) (f : Frame) : State :=
  if s.rx.words.length = 16 then (s.startSuperframe f.service).passFrame f.samples
  else
    match s.rx.words with
    | [w0] =>
      let s1 := s.checkHeader w0 f.service
      if s1.rx.lock = .search then s1 else s1.passFrame f.samples
    | _ => (s.setRx (s.rx.setWords (s.rx.words ++ [f.service]))).passFrame f.samples

/-- An inbound frame arrives: the count of reference periods starts again, and the receiver acts by its lock state. -/
def State.frameArrives (s : State) (f : Frame) : State :=
  let s1 := s.takeOwedTimeout
  let s2 : State := s1.setRx s1.rx.heard
  match s2.rx.lock with
  | .search => s2.searchFrame f
  | .confirm => s2.confirmFrame f
  | .settling | .running => s2.heldFrame f

/-- INBOUND_FRAME (R1): a frame arrives at the inbound port. -/
def execInboundFrame (f : Frame) (s : State) : Host.Outcome State Fault Refusal := .next (s.frameArrives f)

/-! ### PIN_RESET (R22, R23) -/

/-- PIN_RESET (R23): the release of RESET_N samples the straps and puts every block into its pin-reset state. The queue of waiting
commands and the counter of free values are the model's own and carry on. -/
def execPinReset (straps : Straps) (s : State) : Host.Outcome State Fault Refusal :=
  .next { State.afterReset straps with fresh := s.fresh, pending := s.pending }

end Sys2Proof.Machine
end

