-- ==== Sys2Proof/Machine/Programmes.lean ====
section
/-! DEFINITION. The Programme Table: the commands SLOT_MAP, OPEN, CLOSE, PRESENCE_READ and SEGMENT_RESET (chapter 2 and
section 3.5). -/

namespace Sys2Proof.Machine

/-! ### SLOT_MAP (R29, R30) -/

/-- The mode a SLOT_MAP gives, with the class of MEMBER and MEASURE. -/
inductive MapMode where
  | pass
  | member (w : WeightClass)
  | measure (w : WeightClass)
  | mute
  deriving DecidableEq, Repr

/-- The mode and weight operands, or none where row 1 of R29 fails on them. The weight is not examined for PASS and MUTE. -/
def Cell.mapMode (c : Cell) : Option MapMode :=
  match Cell.operand c 0 with
  | none => none
  | some m =>
    if m = 0 then some .pass
    else if m = 1 then ((Cell.operand c 1).bind weightOf).map .member
    else if m = 2 then (((Cell.operand c 1).bind weightOf).filter (· != WeightClass.none)).map .measure
    else if m = 3 then some .mute
    else none

/-- Whether a mode gives the slot to a programme. -/
def MapMode.gives : MapMode → Bool
  | .member _ | .measure _ => true
  | .pass | .mute => false

/-- The slot map entry a mode makes for a programme. -/
def MapMode.entry (m : MapMode) (p : Prog) : SlotEntry :=
  match m with
  | .pass => .pass
  | .member w => .member p w
  | .measure w => .measure p w
  | .mute => .mute

/-- The slots a request names: a run of `count` from `first` on. -/
def namedSlots (first count : Nat) : List SlotNo := allSlots.filter fun i => decide (first ≤ i) && decide (i < first + count)

/-- The slot map with a mode given to the named slots. -/
def State.mapSlots (s : State) (first count : Nat) (m : MapMode) (p : Prog) : Vector SlotEntry 64 :=
  Vector.ofFn fun i : SlotNo => if first ≤ i ∧ i < first + count then m.entry p else s.slots[i]

/-- Whether a new slot map affects a programme: a member joins, leaves, or changes its mode or class (R30). -/
def State.mapAffects (s : State) (new : Vector SlotEntry 64) (p : Prog) : Bool :=
  allSlots.any fun i => new[i] != s.slots[i] && (new[i].owner == some p || s.slots[i].owner == some p)

/-- SLOT_MAP with its checks in the order of R29. -/
def mapRequest (c : Cell) (s : State) : State :=
  let first := Cell.index c
  let count := Cell.count c
  if count < 1 ∨ 16 < count then s.answer c .badValue []
  else
    match Cell.mapMode c, Cell.programme c with
    | none, _ => s.answer c .badValue []
    | some _, none => s.answer c .badIndex []
    | some m, some p =>
      let named := namedSlots first count
      if 63 < first ∨ 64 < first + count then s.answer c .badIndex []
      else if m.gives && !s.opened p then s.answer c .badState []
      else if named.any (fun i => s.slots[i].owner.isSome && s.slots[i].owner != some p) then s.answer c .noRoom []
      else if m.gives && named.any (fun i => s.slots[i] == SlotEntry.mute) then s.answer c .noRoom []
      else if m.gives ∧ 8 < (s.members p).length + (named.filter fun i => s.slots[i].owner != some p).length then
        s.answer c .noRoom []
      else
        let new := s.mapSlots first count m p
        ({ s with
            slots := new
            progs := if s.mapAffects new p then
                s.progs.set p { s.progs[p] with generation := s.progs[p].generation + 1 }
              else s.progs }).answer c .done []

/-- SLOT_MAP (R29): gives a run of slots a mode, programme and weight class. -/
def execSlotMap (s : State) : Host.Outcome State Fault Refusal := .next (onRequest 0x06 mapRequest s)

/-! ### OPEN (R35, R63) -/

/-- A programme record after OPEN. -/
def ProgRecord.opened (r : ProgRecord) (q : ProfileNo) : ProgRecord :=
  { r with state := .dormant, profile := q, silentRun := 0, skipped := 0, generation := r.generation + 1 }

/-- A Meter record after the segment start of OPEN (R63). -/
def MeterRecord.opened (m : MeterRecord) : MeterRecord :=
  { m with sum := 0, frames := 0, window := none, complete := none, ring := [], histogram := Vector.replicate 300 0, total := 0,
           lastShort := none, lastIntegrated := none }

/-- A gain record after OPEN under a profile's initial gain; the staged list and the snap request are as they were left. -/
def GainRecord.opened (g : GainRecord) (initial : Int) : GainRecord :=
  { g with target := initial, current := initial, reduction := 0, guardLength := 0, guardCount := 0, pressure := false }

/-- The effects of an accepted OPEN (R35). -/
def State.openEffects (s : State) (p : Prog) (q : ProfileNo) : State :=
  { s with
    progs := s.progs.set p (s.progs[p].opened q)
    meters := s.meters.set p s.meters[p].opened
    gains := s.gains.set p (s.gains[p].opened s.profiles[q].initialGain) }

/-- OPEN with its checks in the order of R35. -/
def openRequest (c : Cell) (s : State) : State :=
  match Cell.profileOperand c 0, Cell.programme c with
  | none, _ => s.answer c .badValue []
  | some _, none => s.answer c .badIndex []
  | some q, some p => if s.opened p then s.answer c .badState [] else (s.openEffects p q).answer c .done []

/-- OPEN (R35): makes an UNUSED programme DORMANT under a profile. -/
def execOpen (s : State) : Host.Outcome State Fault Refusal := .next (onRequest 0x07 openRequest s)

/-! ### CLOSE (R36, R37, R63, R136) -/

/-- A programme record after CLOSE; the active profile, the reference presence and the skipped-cue count are kept. -/
def ProgRecord.closed (r : ProgRecord) : ProgRecord :=
  { r with state := .unused, generation := r.generation + 1, presence := .silent, silentRun := 0 }

/-- A Meter record after CLOSE; the ring, the histogram, the total and the last values are kept (R63). -/
def MeterRecord.closed (m : MeterRecord) : MeterRecord :=
  { m with sum := 0, frames := 0, window := none, complete := none, resetMark := false }

/-- A gain record after CLOSE; the target and the current gain are kept (R37). -/
def GainRecord.closed (g : GainRecord) : GainRecord :=
  { g with snap := false, staged := [], reduction := 0, guardLength := 0, guardCount := 0, pressure := false }

/-- The arbiter after CLOSE: the programme is out of both sets, and the directives and the PROBE that name it are marked for
abort in their places (R37). -/
def Arbiter.closed (a : Arbiter) (p : Prog) : Arbiter :=
  { a.leave p with
    directives := a.directives.map fun d : Directive => if d.prog = p then { d with abort := true } else d
    probe := a.probe.map fun e : ProbeEntry => if e.prog = p then { e with abort := true } else e }

/-- The report of a staged list that a CLOSE empties from 2 entries (R143). Where it makes a DUE entry of the programme eligible and
an automatic operation is in flight, the report cancels that operation (R90, R99) if it reaches the Cue Queue before the entry is
removed. R37 leaves that order open and a free value gives it: assumption 28. -/
def State.reportEmptied (s : State) (p : Prog) : State :=
  if newlyEligible s (s.setGain p s.gains[p].closed) && s.automaticInFlight then
    if Config.closeReportFirst s.fresh then s.draw.cancelAutomatic else s.draw
  else s

/-- The teardown of a CLOSE in every block, but for what its report of an emptied staged list does (R36, R37, R136). -/
def State.tearDown (s : State) (p : Prog) : State :=
  ({ s with
      progs := s.progs.set p s.progs[p].closed
      slots := Vector.ofFn fun i : SlotNo => if s.slots[i].owner = some p then .pass else s.slots[i]
      cues := s.cues.filter fun e => e.prog != p
      owed := ProgSet.erase s.owed p
      arbiter := s.arbiter.closed p
      engine := s.engine.map fun f : InFlight => if f.prog = p then { f with discard := true } else f
      gains := s.gains.set p s.gains[p].closed
      meters := s.meters.set p s.meters[p].closed
      heldStarts := s.heldStarts.map fun set => ProgSet.erase set p }).claimIf
    (s.progs[p].presence == Presence.present && s.progs[p].reference == Presence.present) .presence

/-- The segment of a programme whose start a boundary has handed the Meter and the Meter still holds: it has started at that
boundary, whatever follows (R61, R125). -/
def State.startHeldSegment (s : State) (p : Prog) : State :=
  if ProgSet.mem (s.heldStarts.getD 0) p then s.startSegment p else s

/-- The effects of an accepted CLOSE. A segment start that the Meter still holds for the programme is made first: assumption 17. Then
comes the report of an emptied staged list, where it takes effect at all: assumption 28. -/
def State.closeEffects (s : State) (p : Prog) : State := ((s.startHeldSegment p).reportEmptied p).tearDown p

/-- CLOSE with its checks in the order of R36. -/
def closeRequest (c : Cell) (s : State) : State :=
  match Cell.programme c with
  | none => s.answer c .badIndex []
  | some p => if s.opened p then (s.closeEffects p).answer c .done [] else s.answer c .badState []

/-- CLOSE (R36): makes a programme UNUSED and hands its teardown to the other blocks. -/
def execClose (s : State) : Host.Outcome State Fault Refusal := .next (onRequest 0x08 closeRequest s)

/-! ### PRESENCE_READ (R43) and SEGMENT_RESET (R62) -/

/-- The set of programmes that are PRESENT. -/
def State.presentSet (s : State) : ProgSet := progSetOf fun p => s.progs[p].presence == .present

/-- PRESENCE_READ: the response is taken first, and then presence is copied into the reference presence (R43). -/
def readPresence (c : Cell) (s : State) : State :=
  (s.setProgs (Vector.ofFn fun p : Prog => { s.progs[p] with reference := s.progs[p].presence })).answer c .done
    (bytes16 s.presentSet ++ bytes16 s.differing)

/-- PRESENCE_READ (R43): returns presence and the differing set, and moves the reference. -/
def execPresenceRead (s : State) : Host.Outcome State Fault Refusal := .next (onRequest 0x0F readPresence s)

/-- SEGMENT_RESET with its checks in the order of R62. -/
def resetSegment (c : Cell) (s : State) : State :=
  match Cell.programme c with
  | none => s.answer c .badIndex []
  | some p =>
    if s.opened p then (s.setMeter p { s.meters[p] with resetMark := true }).answer c .done [] else s.answer c .badState []

/-- SEGMENT_RESET (R62): sets the segment-reset mark for the next block boundary. -/
def execSegmentReset (s : State) : Host.Outcome State Fault Refusal := .next (onRequest 0x10 resetSegment s)

end Sys2Proof.Machine
end

