-- ==== Sys2Proof/Machine/Reading.lean ====
section
/-! DEFINITION. The command READ: the eleven tables, their records and prefixes, and the checks (sections 8.6 and 8.12). A byte
whose value the layouts do not state is drawn from `Config.unstatedByte`: assumption 3. -/

namespace Sys2Proof.Machine

/-- A free byte of a record, by its place. -/
def State.freeByte (s : State) (place : Nat) : Byte := Config.unstatedByte s.fresh place

/-- The code of the ramp state, read from the two gains (R139): 0 SETTLED, 1 RAISING, 2 LOWERING. -/
def GainRecord.rampCode (g : GainRecord) : Byte := if g.current < g.target then 1 else if g.target < g.current then 2 else 0

/-- A PROGRAMME record, 38 bytes (R31, R65, R160). The block count of a programme without a window is not stated. -/
def State.programmeRecord (s : State) (p : Prog) : List Byte :=
  let r := s.progs[p]
  let m := s.meters[p]
  let g := s.gains[p]
  let members := s.members p
  [byteNat p, r.state.code, byteNat r.profile, r.generation,
    mark (r.presence == .present) 0 ||| mark (r.reference == .present) 1 ||| mark m.resetMark 2 ||| mark m.window.isSome 3 |||
      mark g.snap 4 ||| mark g.pressure 5,
    byteNat r.silentRun, byteNat r.skipped, byteNat members.length] ++
  (members.map fun i => byteNat i) ++ List.replicate (8 - members.length) 0xFF ++
  [(match m.window with | some blocks => byteNat blocks.length | none => s.freeByte (64 * p + 16)), byteNat m.ring.length] ++
  bytes32 (BitVec.ofNat 32 m.total) ++ bytesOptInt m.lastShort ++ bytesOptInt m.lastIntegrated ++ bytesInt g.target ++
  bytesInt g.current ++ [g.rampCode, byteNat g.staged.length] ++ bytesNat g.reduction ++ bytesInt g.applied ++
  [byteNat g.guardLength, byteNat g.guardCount]

/-- A SLOTMAP record, 1 byte. -/
def SlotEntry.record (e : SlotEntry) : Byte :=
  match e with
  | .pass => 0x00
  | .member p w => 0x40 ||| (w.code <<< 4) ||| byteNat p
  | .measure p w => 0x80 ||| (w.code <<< 4) ||| byteNat p
  | .mute => 0xC0

/-- A profile record, 25 bytes (section 8.12). -/
def Profile.record (q : Profile) : List Byte :=
  bytesInt q.target ++ [q.basis.code] ++ bytesInt q.absoluteGate ++ bytesInt q.relativeOffset ++ bytesInt q.presenceThreshold ++
    [byteNat q.silenceWindows] ++ bytesInt q.tolerance ++ [byteNat q.lawTable] ++ bytesInt q.gainMin ++ bytesInt q.gainMax ++
    bytesInt q.initialGain ++ [byteNat q.raiseSlew, byteNat q.lowerSlew] ++ bytesInt q.ceiling ++
    [byteNat q.guardRelease, byteNat q.pressureThreshold]

/-- A law point record, 4 bytes. -/
def LawPoint.record (p : LawPoint) : List Byte := bytesInt p.deviation ++ bytesInt p.gain

/-- The prefix of a LAW_ACTIVE or LAW_SHADOW response (R86, section 8.12). -/
def State.lawPrefix (s : State) (t : TableNo) (shadow : Bool) : List Byte :=
  let table := s.laws[t]
  let letter := if shadow then table.active.other else table.active
  let bank := if shadow then table.shadow else table.activeBank
  [letter.code, byteNat bank.count,
    mark table.pending 0 ||| mark (s.lawMark == some (t, letter)) 1 ||| mark (shadow && bank.valid) 2,
    match shadow, bank.firstBad with | true, some k => byteNat k | _, _ => 0xFF]

/-- A CUE record, 10 bytes (R137). The profile byte of an entry without a profile is not stated. -/
def State.cueRecord (s : State) (place : Nat) (c : Cue) : List Byte :=
  [byteNat c.prog] ++ bytes32 c.block ++
    [c.kind.code,
      mark c.profile.isSome 0 ||| mark c.gain.isSome 1 ||| mark c.snap 2 ||| mark c.due 3 ||| mark c.late 4 |||
        mark (s.eligible c) 5,
      (match c.profile with | some q => byteNat q | none => s.freeByte (16 * place + 7))] ++ bytesOptInt c.gain

/-- A STAGED record, 8 bytes (R160). -/
def State.stagedRecord (s : State) (e : Staged) : List Byte :=
  bytes32 e.boundary ++
    [e.kind.code,
      mark e.gain.isSome 0 ||| mark e.snap 1 ||| mark e.late 2 ||| mark (before e.boundary s.currentTime) 3] ++
    bytesOptInt e.gain

/-- An entry of the directive queue in an ENGINE record; the bytes of an empty place are not stated. -/
def State.directiveRecord (s : State) (k : Nat) : List Byte :=
  match s.arbiter.directives[k]? with
  | some d => [d.op.code, mark d.abort 7 ||| byteNat d.prog]
  | none => [s.freeByte (1 + 2 * k), s.freeByte (2 + 2 * k)]

/-- A pointer in an ENGINE record, 0xFF for none. -/
def pointerByte (p : Option Prog) : Byte := match p with | some q => byteNat q | none => 0xFF

/-- The last five bytes of an ENGINE record: the in-flight record, or an idle mark beside bytes that are not stated. Bits that
the layout does not name are 0 (R183). -/
def State.inFlightRecord (s : State) : List Byte :=
  match s.engine with
  | some f =>
    [f.op.code, byteNat f.prog, f.snap.generation,
      (match f.snap.bank with
        | some (t, letter) => 0x80 ||| (letter.code <<< 2) ||| byteNat t
        | none => s.freeByte 22 &&& 0x07),
      mark (f.boundaries % 2 == 1) 0 ||| mark f.discard 1]
  | none => [0, s.freeByte 20, s.freeByte 21, s.freeByte 22 &&& 0x07, s.freeByte 23 &&& 0x03]

/-- The ENGINE record, 24 bytes (R112). -/
def State.engineRecord (s : State) : List Byte :=
  [byteNat s.arbiter.directives.length] ++ s.directiveRecord 0 ++ s.directiveRecord 1 ++ s.directiveRecord 2 ++
    s.directiveRecord 3 ++
    (match s.arbiter.probe with
      | some e => [0x80 ||| mark e.abort 6 ||| byteNat e.prog, byteNat e.profile]
      | none => [s.freeByte 9 &&& 0x4F, s.freeByte 10]) ++
    [byteNat (s.cues.filter s.eligible).length] ++ bytes16 s.arbiter.rescale ++ bytes16 s.arbiter.retune ++
    [mark s.arbiter.retuneOn 0 ||| mark s.arbiter.rescaleOn 1, pointerByte s.arbiter.rescalePointer,
      pointerByte s.arbiter.retunePointer] ++ s.inFlightRecord

/-- The STATUS record, 15 bytes (R178). The READ being executed is counted among the reservations. -/
def State.statusRecord (s : State) : List Byte :=
  bytesNat s.cells.headerErrors ++ bytesNat s.cells.crcErrors ++ bytesNat s.cells.dropped ++ [s.rx.lock.code] ++
    bytes32 s.currentTime ++
    [byteNat s.cells.requests.length, byteNat s.cells.forward.length, byteNat s.cells.responses.length,
      byteNat s.reservations]

/-- A table as READ sees it: the prefix of every response to it, the bytes of a record, and its records (R177). -/
structure TableView where
  lead : List Byte
  recordBytes : Nat
  records : List (List Byte)

/-- The table of a code for a subject, or none where the subject is out of range (R177). -/
def State.tableView (s : State) (code subject : Nat) : Option TableView :=
  match code with
  | 0 => some ⟨[], 38, allProgs.map s.programmeRecord⟩
  | 1 => some ⟨[], 1, allSlots.map fun i => [s.slots[i].record]⟩
  | 2 => some ⟨[], 26, (List.finRange 8).map fun q : ProfileNo => s.profiles[q].record ++ [mark (s.profileInUse q) 0]⟩
  | 3 => (tableOf subject).map fun t => ⟨s.lawPrefix t false, 4, s.laws[t].activeBank.points.toList.map (·.record)⟩
  | 4 => (tableOf subject).map fun t => ⟨s.lawPrefix t true, 4, s.laws[t].shadow.points.toList.map (·.record)⟩
  | 5 => some ⟨[byteNat s.cues.length, byteNat s.notice.warnLevel] ++ bytes16 s.owed, 10, s.cues.mapIdx s.cueRecord⟩
  | 6 => (progOf subject).map fun p => ⟨[], 8, s.gains[p].staged.map s.stagedRecord⟩
  | 7 => (progOf subject).map fun p => ⟨[], 2, s.meters[p].histogram.toList.map bytesNat⟩
  | 8 => (progOf subject).map fun p => ⟨[], 2, s.meters[p].ring.map bytesInt⟩
  | 9 => some ⟨[], 24, [s.engineRecord]⟩
  | _ => some ⟨[], 15, [s.statusRecord]⟩

/-- The first index of a READ: its low byte in the index field, its high byte in payload byte 1, 0 where there is none (R176). -/
def Cell.firstIndex (c : Cell) : Nat := 256 * ((Cell.operand c 1).getD 0).toNat + Cell.index c

/-- READ with its checks in the order of R176. The number of records returned is the smallest of the count asked, the number
that fit and the number present from the first index on (R177). -/
def readTable (c : Cell) (s : State) : State :=
  match Cell.operand c 0 with
  | none => s.answer c .badValue []
  | some code =>
    if 10 < code.toNat ∨ Cell.count c = 0 then s.answer c .badValue []
    else
      match s.tableView code.toNat (Cell.target c) with
      | none => s.answer c .badIndex []
      | some v =>
        let first := Cell.firstIndex c
        if v.records.length ≤ first then s.answer c .badIndex []
        else
          let n := min (Cell.count c) (min ((45 - v.lead.length) / v.recordBytes) (v.records.length - first))
          s.draw.answerCount c (if n = Cell.count c then .done else .partialDone) (byteNat n)
            (v.lead ++ ((v.records.drop first).take n).flatten)

/-- READ (R176): returns whole records of a table. -/
def execRead (s : State) : Host.Outcome State Fault Refusal := .next (onRequest 0x02 readTable s)

end Sys2Proof.Machine
end

