-- ==== Sys2Proof/Machine/Dispatch.lean ====
section
/-! DEFINITION. One arm for each command: a direct call of its meaning. -/

namespace Sys2Proof.Machine

def exec (i : Instr) (s : State) : Host.Outcome State Fault Refusal :=
  match i with
  | .pinReset straps => Sys2Proof.Machine.execPinReset straps s
  | .inboundFrame f => Sys2Proof.Machine.execInboundFrame f s
  | .windowCompletion => Sys2Proof.Machine.execWindowCompletion s
  | .referenceFramePeriod => Sys2Proof.Machine.execReferenceFramePeriod s
  | .missingFrameTimeout => Sys2Proof.Machine.execMissingFrameTimeout s
  | .requestTake => Sys2Proof.Machine.execRequestTake s
  | .unknownRequest => Sys2Proof.Machine.execUnknownRequest s
  | .ident => Sys2Proof.Machine.execIdent s
  | .read => Sys2Proof.Machine.execRead s
  | .profileWrite => Sys2Proof.Machine.execProfileWrite s
  | .lawLoad => Sys2Proof.Machine.execLawLoad s
  | .lawSwap => Sys2Proof.Machine.execLawSwap s
  | .slotMap => Sys2Proof.Machine.execSlotMap s
  | .openProgramme => Sys2Proof.Machine.execOpen s
  | .closeProgramme => Sys2Proof.Machine.execClose s
  | .cuePost => Sys2Proof.Machine.execCuePost s
  | .cueWithdraw => Sys2Proof.Machine.execCueWithdraw s
  | .profileExchange => Sys2Proof.Machine.execProfileExchange s
  | .gainForce => Sys2Proof.Machine.execGainForce s
  | .gainRelease => Sys2Proof.Machine.execGainRelease s
  | .probe => Sys2Proof.Machine.execProbe s
  | .presenceRead => Sys2Proof.Machine.execPresenceRead s
  | .segmentReset => Sys2Proof.Machine.execSegmentReset s
  | .participate => Sys2Proof.Machine.execParticipate s
  | .conditionsRead => Sys2Proof.Machine.execConditionsRead s
  | .conditionsClear => Sys2Proof.Machine.execConditionsClear s
  | .noticeSet => Sys2Proof.Machine.execNoticeSet s
  | .restart => Sys2Proof.Machine.execRestart s
  | .grant => Sys2Proof.Machine.execGrant s
  | .retuneCompletion => Sys2Proof.Machine.execRetuneCompletion s
  | .rescaleCompletion => Sys2Proof.Machine.execRescaleCompletion s
  | .cueCompletion => Sys2Proof.Machine.execCueCompletion s
  | .profileExchangeCompletion => Sys2Proof.Machine.execProfileExchangeCompletion s
  | .gainForceCompletion => Sys2Proof.Machine.execGainForceCompletion s
  | .gainReleaseCompletion => Sys2Proof.Machine.execGainReleaseCompletion s
  | .probeCompletion => Sys2Proof.Machine.execProbeCompletion s

end Sys2Proof.Machine
end

