-- ==== Sys2Proof/Safety.lean ====
section
/-! DEFINITION. What the part keeps true from step to step, group by group of its state, and the words in which the statements
speak: the request in hand, the operation in flight, and a sample held under a ceiling. -/

namespace Sys2Proof.Machine

/-! ### Words for statements -/

/-- The Cell Handler holds in hand the request cell `c`, of kind `code` and of a payload length that R171 accepts. -/
def State.holds (s : State) (code : Nat) (c : Cell) : Prop :=
  s.cells.inHand = some c ∧ Cell.kind c = code ∧ Cell.payloadLength c ≤ 45

/-- The request rows of the table with their kind codes (section 8.11). -/
def requestRows : List (Instr × Nat) :=
  [(.ident, 0x01), (.read, 0x02), (.profileWrite, 0x03), (.lawLoad, 0x04), (.lawSwap, 0x05), (.slotMap, 0x06),
   (.openProgramme, 0x07), (.closeProgramme, 0x08), (.cuePost, 0x09), (.cueWithdraw, 0x0A), (.profileExchange, 0x0B),
   (.gainForce, 0x0C), (.gainRelease, 0x0D), (.probe, 0x0E), (.presenceRead, 0x0F), (.segmentReset, 0x10),
   (.participate, 0x11), (.conditionsRead, 0x12), (.conditionsClear, 0x13), (.noticeSet, 0x14), (.restart, 0x15)]

/-- No header error of missing frames is due: fewer reference periods have passed than R9 asks for. -/
def State.framesInTime (s : State) : Prop := s.rx.periods < s.rx.nextTimeout

/-- The receiver is in SETTLING or RUNNING, and no header error of missing frames is due. -/
def State.followsTheLink (s : State) : Prop := (s.rx.lock = .settling ∨ s.rx.lock = .running) ∧ s.framesInTime

/-- The operation `f` is in flight and its discard mark is clear. -/
def State.inFlight (s : State) (f : InFlight) : Prop := s.engine = some f ∧ f.discard = false

/-- `p` is the member of a set that its round-robin pointer gives: the lowest above the pointer, else the lowest (R94). -/
def NextInTurn (set : ProgSet) (pointer : Option Prog) (p : Prog) : Prop :=
  ProgSet.mem set p = true ∧
    ((∃ q, pointer = some q ∧ q < p ∧ ∀ r, ProgSet.mem set r = true → q < r → p ≤ r) ∨
      ((∀ q r, pointer = some q → ProgSet.mem set r = true → r ≤ q) ∧ ∀ r, ProgSet.mem set r = true → p ≤ r))

/-- A sample that does not exceed a ceiling of `c` steps of 0.1 dBFS: its magnitude is at most
8 388 608 * 10 ^ (c / 200) + 1/2 (R153). -/
def underCeiling (x : Sample) (c : Int) : Prop := (x.toInt.natAbs : ℝ) ≤ 8388608 * (10 : ℝ) ^ ((c : ℝ) / 200) + 1 / 2

/-- Between a Notice Unit and later flags some claim has been a trigger: it took a flag from clear to set, of level 7 or enabled at a
level above the mask (R185). -/
def NoticeUnit.Triggered (n : NoticeUnit) (flags : BitVec 10) : Prop :=
  ∃ k : Condition, n.flags.getLsbD k.bit = false ∧ flags.getLsbD k.bit = true ∧
    (k.level = 7 ∨ (n.enable.getLsbD k.bit = true ∧ n.mask < k.level))

/-- The cell that the part offers the outbound cell slot, with its source: a notice that is owed, built from the state as it
stands, else the head of the forward queue, else the oldest completed response, else an idle cell (R174, R187). -/
def State.OffersCell (s : State) (cell : Cell) (source : CellSource) : Prop :=
  (s.notice.state ≠ .none ∧ source = .notice ∧ cell = MadeCell.toCell
      { destination := s.notice.destination, kind := 0xF0, status := 0, tag := 0, target := 0, index := 0, count := 0
        payload := bytes16 (s.notice.flags.setWidth 16) ++ bytes16 s.differing ++ bytes16 s.pressureSet ++
          [BitVec.ofNat 8 s.cues.length] } s.address) ∨
    (s.notice.state = .none ∧
      (((∃ rest, s.cells.forward = cell :: rest) ∧ source = .forward) ∨
        (s.cells.forward = [] ∧
          (((∃ m rest, s.cells.responses = m :: rest ∧ cell = m.toCell s.address) ∧ source = .response) ∨
            (s.cells.responses = [] ∧ source = .idle ∧ cell = MadeCell.toCell
              { destination := 0, kind := 0, status := 0, tag := 0, target := 0, index := 0, count := 0
                payload := [] } s.address)))))

/-- `n` is the energy mean of loudness values with counts, rounded to the nearest 0.1 LU with halves toward the higher value. Where
the mean energy lies nearer than 10^-3200 to that of a half step, `n` may be one step low; no such mean can be formed, by the
estimate of assumption 7 (R57, R58). -/
def IsEnergyMean (terms : List (Nat × Int)) (n : Int) : Prop :=
  ∀ (mean : ℝ) (nearest : Int),
    mean = (terms.map fun x => (x.1 : ℝ) * (10 : ℝ) ^ ((x.2 : ℝ) / 100)).sum / (terms.map fun x => (x.1 : ℝ)).sum →
    nearest = ⌊100 * Real.logb 10 mean + 1 / 2⌋ →
    (n = nearest ∨ n = nearest - 1) ∧
    ((∀ k : Int, (10 : ℝ) ^ (-3200 : ℝ) ≤ |mean - (10 : ℝ) ^ ((2 * (k : ℝ) - 1) / 200)|) → n = nearest)

/-- A profile record every field of which stands in its range and in its relations (R67, R71). -/
structure Profile.Legal (q : Profile) : Prop where
  target : -400 ≤ q.target ∧ q.target ≤ -100
  absoluteGate : -700 ≤ q.absoluteGate ∧ q.absoluteGate ≤ -300
  relativeOffset : -200 ≤ q.relativeOffset ∧ q.relativeOffset ≤ -10
  presenceThreshold : -700 ≤ q.presenceThreshold ∧ q.presenceThreshold ≤ -200
  silenceWindows : 1 ≤ q.silenceWindows ∧ q.silenceWindows ≤ 255
  tolerance : 0 ≤ q.tolerance ∧ q.tolerance ≤ 300
  gainMin : -4000 ≤ q.gainMin
  gainMax : q.gainMax ≤ 2000
  initialGain : q.gainMin ≤ q.initialGain ∧ q.initialGain ≤ q.gainMax
  slews : q.raiseSlew ≤ 255 ∧ q.lowerSlew ≤ 255
  ceiling : -200 ≤ q.ceiling ∧ q.ceiling ≤ 0
  guardRelease : 1 ≤ q.guardRelease ∧ q.guardRelease ≤ 50
  pressureThreshold : 1 ≤ q.pressureThreshold ∧ q.pressureThreshold ≤ 75

/-! ### Invariants, one group of state each -/

/-- The queues of the Cell Handler and of the arbiter keep their limits (R88, R169, R170, R172). A directive in hand was taken
with a place for it in the directive queue. -/
structure State.WithinLimits (s : State) : Prop where
  requests : s.cells.requests.length ≤ 4
  forward : s.cells.forward.length ≤ 4
  directives : s.arbiter.directives.length ≤ 4
  responses : s.cells.responses.length + s.reservations ≤ 8
  room : ∀ c, s.cells.inHand = some c → Cell.isDirective c = true → s.arbiter.directives.length < 4

/-- Each programme has at most 8 slots, and an UNUSED programme has none (R27). -/
structure State.SlotsKept (s : State) : Prop where
  atMostEight : ∀ p : Prog, (s.members p).length ≤ 8
  closedHasNone : ∀ p : Prog, s.opened p = false → s.members p = []

/-- Every cue entry, every staged entry and every programme of the owed segment set names a programme that is not UNUSED, every
member of the retune set and of the rescale set is TRACKING, and a set whose flag is off is empty (R37, R91, R92, R136). -/
structure State.NamesOpen (s : State) : Prop where
  cues : ∀ c ∈ s.cues, s.opened c.prog = true
  staged : ∀ p : Prog, s.gains[p].staged ≠ [] → s.opened p = true
  owed : ∀ p : Prog, ProgSet.mem s.owed p = true → s.opened p = true
  retune : ∀ p : Prog, ProgSet.mem s.arbiter.retune p = true → s.tracking p = true ∧ s.arbiter.retuneOn = true
  rescale : ∀ p : Prog, ProgSet.mem s.arbiter.rescale p = true → s.tracking p = true ∧ s.arbiter.rescaleOn = true

/-- Every profile is legal, every target gain of a programme that is not UNUSED lies in the range of its active profile, and
the gains and reductions of every programme lie in their ranges (R67, R139, R140, R149). -/
structure State.GainsKept (s : State) : Prop where
  profiles : ∀ q : ProfileNo, s.profiles[q].Legal
  inProfile : ∀ p : Prog, s.opened p = true →
    (s.activeProfile p).gainMin ≤ s.gains[p].target ∧ s.gains[p].target ≤ (s.activeProfile p).gainMax
  target : ∀ p : Prog, -4000 ≤ s.gains[p].target ∧ s.gains[p].target ≤ 2000
  current : ∀ p : Prog, -4000 ≤ s.gains[p].current ∧ s.gains[p].current ≤ 2000
  reduction : ∀ p : Prog, s.gains[p].reduction ≤ 400
  guardWindow : ∀ p : Prog, s.gains[p].guardCount ≤ s.gains[p].guardLength ∧ s.gains[p].guardLength ≤ 74

/-- A law bank holds a count of at most 32 and points in range (R75). -/
def LawBank.InRange (b : LawBank) : Prop := b.count ≤ 32 ∧ ∀ k : Fin 32, (b.points[k]).inRange = true

/-- The active bank of every law table is valid, and so is the shadow bank of a table whose swap is pending (R75, R82). -/
structure State.LawsKept (s : State) : Prop where
  inRange : ∀ t : TableNo, s.laws[t].bankA.InRange ∧ s.laws[t].bankB.InRange
  active : ∀ t : TableNo, s.laws[t].activeBank.valid = true
  pending : ∀ t : TableNo, s.laws[t].pending = true → s.laws[t].shadow.valid = true

/-- The in-use mark names the bank of the operation in flight, which has seen at most one block boundary since its grant (R78,
R97). -/
structure State.MarkKept (s : State) : Prop where
  mark : s.lawMark = s.engine.bind fun f => f.snap.bank
  bound : ∀ f, s.engine = some f → f.boundaries ≤ 1

/-- A DORMANT and an UNUSED programme are SILENT, and a TRACKING programme is PRESENT (R35, R41). -/
structure State.PresenceKept (s : State) : Prop where
  unused : ∀ p : Prog, s.progs[p].state = .unused → s.progs[p].presence = .silent
  dormant : ∀ p : Prog, s.progs[p].state = .dormant → s.progs[p].presence = .silent
  tracking : ∀ p : Prog, s.progs[p].state = .tracking → s.progs[p].presence = .present

/-- Each programme has at most 2 staged entries, and at most 1 while a cue that can stage one is in flight for it (R90, R141). -/
structure State.StagedKept (s : State) : Prop where
  atMostTwo : ∀ p : Prog, s.gains[p].staged.length ≤ 2
  inFlight : ∀ f e, s.engine = some f → f.op = .cue e →
    f.prog = e.prog ∧ (f.discard = false → s.gains[e.prog].staged.length ≤ 1)

/-- The Cue Queue holds at most 32 entries, no two of one programme and one due block (R115). -/
structure State.CuesKept (s : State) : Prop where
  atMost32 : s.cues.length ≤ 32
  distinct : s.cues.Pairwise fun a b => ¬(a.prog = b.prog ∧ a.block = b.block)

/-- The Meter's collections keep their limits; a window counts for a programme that is not UNUSED and in RUNNING alone, with
fewer than 75 blocks closed and a block begun; and a window that waits for its segment starts has its 75 blocks (R48, R49, R51,
R54, R55, R64). -/
structure State.MeterKept (s : State) : Prop where
  ring : ∀ p : Prog, s.meters[p].ring.length ≤ 30
  bins : ∀ (p : Prog) (k : Fin 300), s.meters[p].histogram[k] ≤ 65535
  total : ∀ p : Prog, s.meters[p].total < 2 ^ 32
  window : ∀ p : Prog, ∀ blocks, s.meters[p].window = some blocks →
    s.rx.lock = .running ∧ s.opened p = true ∧ blocks.length ≤ 74 ∧ 1 ≤ s.meters[p].frames
  waiting : ∀ p : Prog, ∀ blocks, s.meters[p].complete = some blocks → s.heldStarts.isSome = true ∧ blocks.length = 75

/-- The delay line is 128 frames deep (R16), and the receiver holds what its lock state gives it: nothing in SEARCH (R8), the
frames of a superframe in every other state, and in SETTLING and RUNNING an assigned link time on a superframe, the next one
expected, and a header-error run below 2, with a settle count in SETTLING alone (R5, R6, R7, R10). The count of reference periods
never passes the one at which the next header error is taken (R9), since an error that is due is taken first: assumption 10. -/
structure State.LinkKept (s : State) : Prop where
  delay : s.delay.length = 128
  search : s.rx.lock = .search →
    s.rx.words = [] ∧ s.rx.expected = none ∧ s.rx.slip = none ∧ s.rx.settle = none ∧ s.rx.errorRun = 0
  frames : s.rx.lock ≠ .search → 1 ≤ s.rx.words.length ∧ s.rx.words.length ≤ 16
  locked : s.rx.lock = .settling ∨ s.rx.lock = .running →
    onSuperframe s.rx.time = true ∧ (∃ e, s.rx.expected = some e ∧ onSuperframe e = true) ∧ s.rx.errorRun ≤ 1
  settle : s.rx.settle.isSome = true ↔ s.rx.lock = .settling
  periods : s.rx.periods ≤ s.rx.nextTimeout

end Sys2Proof.Machine
end

