-- ==== Sys2Proof/Certificates/Slice0/Obligations.lean ====
section
/-! DEFINITION. The statements for the provers, each a proposition about the model. A statement of a command's result gives the
whole next state, so that it says what the command leaves as it was. -/

open Sys2Proof Sys2Proof.Machine

/-! ### Steps, completion and reset -/

/-- A step takes the command at the front of the queue and carries it out on the rest of the queue. On an empty queue it changes
nothing, which is the model's choice: assumption 13. -/
def Obligations.StepTakesTheFrontCommand : Prop :=
  (∀ (c : Instr) (rest : List Instr) (s : State), s.pending = c :: rest → step s = exec c { s with pending := rest }) ∧
  (∀ s : State, s.pending = [] → step s = .next s)

/-- Every command answers a next state in every state; none touches the waiting commands, and none but PIN_RESET the straps. That
PIN_RESET too leaves the waiting commands is the model's choice (assumptions 14 and 16), and so is that a request or completion row
without its request in hand or its operation in flight changes nothing (assumption 8). -/
def Obligations.EveryCommandCompletes : Prop :=
  ∀ (i : Instr) (s : State), ∃ t, exec i s = .next t ∧ t.pending = s.pending ∧
    ((∀ x, i ≠ .pinReset x) → t.straps = s.straps)

/-- PIN_RESET: the whole state after it. The first outbound superframe has begun on the reference clock, with link time 0, ABSENT,
hop address 0x00 and the notice of RESTARTED. That none of its frames has been sent and that its notice is SENDING, and that the
counter of free values and the queue carry on, are the model's choices: assumptions 15 and 16; and so is that the working fields, which
no rule names, are empty: assumption 26. Every gain record then holds the values of R161, and every programme is UNUSED. -/
def Obligations.PinResetPutsEveryBlockIntoItsResetState : Prop :=
  (∀ (x : Straps) (s : State), exec (.pinReset x) s = .next
    { straps := x
      rx := { lock := .search, possible := none, words := [], header := .unchecked, time := 0, expected := none,
              slip := none, settle := none, errorRun := 0, periods := 0, timeouts := 0, hop := 0 }
      tx :=
        { time := 0, absent := true, bypass := false, hop := 0, source := .notice, sent := 0
          cell := MadeCell.toCell
            { destination := 1, kind := 0xF0, status := 0, tag := 0, target := 0, index := 0, count := 0
              payload := [0, 2, 0, 0, 0, 0, 0] } (0x40 + x.address.setWidth 8) }
      sent := none
      delay := List.replicate 128 (Vector.replicate 64 0)
      filterInput := []
      slots := Vector.replicate 64 .pass
      progs := Vector.replicate 16
        { state := .unused, profile := 0, generation := 0, presence := .silent, silentRun := 0, reference := .silent,
          skipped := 0 }
      meters := Vector.replicate 16
        { sum := 0, frames := 0, window := none, complete := none, ring := [], histogram := Vector.replicate 300 0,
          total := 0, lastShort := none, lastIntegrated := none, resetMark := false }
      heldStarts := none
      profiles := Vector.replicate 8
        { target := -240, basis := .blend, absoluteGate := -700, relativeOffset := -100, presenceThreshold := -600,
          silenceWindows := 50, tolerance := 50, lawTable := 0, gainMin := -2000, gainMax := 1200, initialGain := 0,
          raiseSlew := 1, lowerSlew := 4, ceiling := -10, guardRelease := 5, pressureThreshold := 20 }
      laws := Vector.replicate 4
        { bankA := { points := ((Vector.replicate 32 ⟨0, 0⟩).set 0 ⟨-200, 2000⟩).set 1 ⟨200, -2000⟩, count := 2 }
          bankB := { points := ((Vector.replicate 32 ⟨0, 0⟩).set 0 ⟨-200, 2000⟩).set 1 ⟨200, -2000⟩, count := 2 }
          active := .a, pending := false }
      lawMark := none
      arbiter :=
        { directives := [], probe := none, rescale := 0, retune := 0, rescaleOn := true, retuneOn := true,
          rescalePointer := none, retunePointer := none }
      engine := none
      cues := []
      owed := 0
      gains := Vector.replicate 16
        { target := 0, current := 0, snap := false, staged := [], reduction := 0, guardLength := 0, guardCount := 0,
          pressure := false }
      cells :=
        { requests := [], inHand := none, forward := [], responses := [], headerErrors := 0, crcErrors := 0, dropped := 0 }
      notice := { flags := 0b10, enable := 0b1111, mask := 0, destination := 1, warnLevel := 24, state := .sending }
      fresh := s.fresh
      pending := s.pending }) ∧
  (∀ (x : Straps) (s : State), ∃ t, exec (.pinReset x) s = .next t ∧ ∀ p : Prog,
    t.gains[p].target = 0 ∧ t.gains[p].current = 0 ∧ t.gains[p].snap = false ∧ t.gains[p].staged = [] ∧
      t.gains[p].reduction = 0 ∧ t.gains[p].guardLength = 0 ∧ t.gains[p].guardCount = 0 ∧ t.gains[p].pressure = false ∧
      t.progs[p].state = .unused)

/-- The state after reset meets every invariant. -/
def Obligations.ResetMeetsEveryInvariant : Prop :=
  State.reset.WithinLimits ∧ State.reset.SlotsKept ∧ State.reset.NamesOpen ∧ State.reset.GainsKept ∧ State.reset.LawsKept ∧
    State.reset.MarkKept ∧ State.reset.PresenceKept ∧ State.reset.StagedKept ∧ State.reset.CuesKept ∧ State.reset.MeterKept ∧
    State.reset.LinkKept

/-! ### Requests and responses -/

/-- REQUEST_TAKE: the head is taken into hand where no request is in hand, completed responses and reservations are below 8 and,
for a directive, the directive queue holds fewer than 4; otherwise the queue waits. -/
def Obligations.RequestTakeTakesTheHead : Prop :=
  (∀ (s : State) (head : Cell) (rest : List Cell), s.cells.requests = head :: rest → s.cells.inHand = none →
    s.cells.responses.length + s.reservations < 8 →
    (0x0B ≤ Cell.kind head ∧ Cell.kind head ≤ 0x0D → s.arbiter.directives.length < 4) →
    exec .requestTake s = .next { s with cells := { s.cells with requests := rest, inHand := some head } }) ∧
  (∀ (s : State) (head : Cell) (rest : List Cell), s.cells.requests = head :: rest →
    (s.cells.inHand ≠ none ∨ 8 ≤ s.cells.responses.length + s.reservations ∨
      (0x0B ≤ Cell.kind head ∧ Cell.kind head ≤ 0x0D ∧ 4 ≤ s.arbiter.directives.length)) →
    exec .requestTake s = .next s) ∧
  (∀ s : State, s.cells.requests = [] → exec .requestTake s = .next s)

/-- An answer fills the reserved entry of the request in hand: it echoes the request's fields and joins the tail of the response
queue, and nothing else changes. A cell the part makes is 56 bytes: its fields in their places, the payload, padding of zeros, and
a check that passes. The check of a cell is the CRC of its bytes 0 to 53, taken bit by bit from a register of all ones under the
generator x^16 + x^12 + x^5 + 1, against its bytes 54 and 55. The statuses have the codes of section 8.12. -/
def Obligations.AnswersAreCellsThatEchoTheirRequest : Prop :=
  (∀ (s : State) (c : Cell) (st : Status) (payload : List Byte), s.answer c st payload =
    { s with cells := { s.cells with
        inHand := none
        responses := s.cells.responses ++
          [{ destination := Cell.byte c 1, kind := Cell.byte c 2 + 0x80, status := st.code, tag := Cell.byte c 4,
             target := Cell.byte c 5, index := Cell.byte c 6, count := if Cell.kind c = 0x02 then 0 else Cell.byte c 7,
             payload := payload }] } }) ∧
  (∀ (m : MadeCell) (origin : Byte), m.payload.length ≤ 45 →
    (m.toCell origin).length = 56 ∧
    (m.toCell origin).take 9 =
      [m.destination, origin, m.kind, m.status, m.tag, m.target, m.index, m.count, BitVec.ofNat 8 m.payload.length] ∧
    ((m.toCell origin).drop 9).take m.payload.length = m.payload ∧
    (∀ k, 9 + m.payload.length ≤ k → k < 54 → Cell.byte (m.toCell origin) k = 0) ∧
    Cell.checks (m.toCell origin) = true) ∧
  (∀ divide : BitVec 16 → Bool → BitVec 16,
    (∀ r b, divide r b = if r.getLsbD 15 = b then r <<< 1 else (r <<< 1) ^^^ 0x1021) → ∀ bytes : List Byte,
    crc bytes =
      (bytes.flatMap fun b => [b.getLsbD 7, b.getLsbD 6, b.getLsbD 5, b.getLsbD 4, b.getLsbD 3, b.getLsbD 2, b.getLsbD 1,
        b.getLsbD 0]).foldl divide 0xFFFF) ∧
  (∀ c : Cell, Cell.checks c = true ↔ c.getD 54 0 ++ c.getD 55 0 = crc (c.take 54)) ∧
  [Status.done, .partialDone, .badKind, .badIndex, .badValue, .badState, .noRoom, .queueFull, .cueLate, .cueFar, .mismatch, .busy,
    .aborted].map (·.code) = [0x00, 0x01, 0x10, 0x11, 0x12, 0x13, 0x14, 0x15, 0x16, 0x17, 0x18, 0x19, 0x1A]

/-- A request in hand whose kind is not one of the 21 is answered BAD_KIND, and a request of each of the 21 kinds with a payload
length above 45 is answered BAD_VALUE; nothing else changes. -/
def Obligations.BadKindsAndLengthsAreRefused : Prop :=
  (∀ (s : State) (c : Cell), s.cells.inHand = some c → ¬(0x01 ≤ Cell.kind c ∧ Cell.kind c ≤ 0x15) →
     exec .unknownRequest s = .next (s.answer c .badKind [])) ∧
  (∀ (i : Instr) (code : Nat) (s : State) (c : Cell), (i, code) ∈ requestRows → s.cells.inHand = some c →
     Cell.kind c = code → 45 < Cell.payloadLength c → exec i s = .next (s.answer c .badValue []))

/-- IDENT is answered DONE with the part code, the revision, the link address, the lock state, the settle code, the flags and the
current link time, and changes nothing else. -/
def Obligations.IdentReturnsThePartsState : Prop :=
  ∀ (s : State) (c : Cell), s.holds 0x01 c → exec .ident s = .next (s.answer c .done
    ([0x4E, 0x4C, 0x34, 0x31, 0x32, 1, 0x40 + s.straps.address.setWidth 8, s.rx.lock.code, s.straps.settle.setWidth 8] ++
      bytes16 (s.notice.flags.setWidth 16) ++ bytes32 s.currentTime))

/-- READ: the checks in their order, and the records of an accepted READ: as many as were asked for, as fit and as are present,
with PARTIAL where that is fewer than asked. A subject is out of range where it is above 3 for a law table's codes and above 15 for a
programme's; the other tables take none. Nothing but the response changes; that the counter of free values advances is the model's
own: assumption 3. -/
def Obligations.ReadReturnsWholeRecords : Prop :=
  (∀ (s : State) (code subject : Nat), code ≤ 10 →
    (s.tableView code subject = none ↔
      ((code = 3 ∨ code = 4) ∧ 4 ≤ subject) ∨ ((code = 6 ∨ code = 7 ∨ code = 8) ∧ 16 ≤ subject)) ∧
    (code ∈ [0, 1, 2, 5, 9, 10] → s.tableView code subject = s.tableView code 0)) ∧
  ∀ (s : State) (c : Cell), s.holds 0x02 c →
    (Cell.operand c 0 = none → exec .read s = .next (s.answer c .badValue [])) ∧
    (∀ code, Cell.operand c 0 = some code → (10 < code.toNat ∨ Cell.count c = 0) →
      exec .read s = .next (s.answer c .badValue [])) ∧
    (∀ code, Cell.operand c 0 = some code → code.toNat ≤ 10 → Cell.count c ≠ 0 →
      s.tableView code.toNat (Cell.target c) = none → exec .read s = .next (s.answer c .badIndex [])) ∧
    (∀ code v first, Cell.operand c 0 = some code → code.toNat ≤ 10 → Cell.count c ≠ 0 →
      s.tableView code.toNat (Cell.target c) = some v →
      first = 256 * ((Cell.operand c 1).getD 0).toNat + Cell.index c →
      (v.records.length ≤ first → exec .read s = .next (s.answer c .badIndex [])) ∧
      (first < v.records.length → ∀ n,
        n = min (Cell.count c) (min ((45 - v.lead.length) / v.recordBytes) (v.records.length - first)) →
        exec .read s = .next { s with
          fresh := s.fresh + 1
          cells := { s.cells with
            inHand := none
            responses := s.cells.responses ++
              [(Cell.reply c).made (if n = Cell.count c then .done else .partialDone) (BitVec.ofNat 8 n)
                (v.lead ++ ((v.records.drop first).take n).flatten)] } }))

/-- Every table of READ has the number of records, the prefix length and the record length of R177's table, and the records and
prefixes of section 8.12, byte by byte. The bytes that no layout states (an entry of an empty place, the block count of a programme
without a window) are free, and the counter of free values advances, which is the model's own: assumption 3. READ STATUS answers the
three counters, the lock state, the current link time, the three occupancies and the reservations, its own counted. -/
def Obligations.ReadTablesHoldTheirRecords : Prop :=
  (∀ (s : State) (code subject : Nat) (v : TableView), s.SlotsKept → code ≤ 10 → s.tableView code subject = some v →
     v.lead.length = (if code = 3 ∨ code = 4 ∨ code = 5 then 4 else 0) ∧
     v.recordBytes = [38, 1, 26, 4, 4, 10, 8, 2, 2, 24, 15].getD code 0 ∧
     (∀ r ∈ v.records, r.length = v.recordBytes) ∧
     (code = 0 → v.records.length = 16) ∧ (code = 1 → v.records.length = 64) ∧ (code = 2 → v.records.length = 8) ∧
     (code = 3 ∨ code = 4 → subject < 4 ∧ v.records.length = 32) ∧ (code = 5 → v.records.length = s.cues.length) ∧
     (code = 7 → subject < 16 ∧ v.records.length = 300) ∧
     (∀ p : Prog, subject = p → (code = 6 → v.records.length = s.gains[p].staged.length) ∧
       (code = 8 → v.records.length = s.meters[p].ring.length)) ∧
     (code = 9 ∨ code = 10 → v.records.length = 1)) ∧
  (∀ (s : State) (c : Cell), s.holds 0x02 c → Cell.operand c 0 = some 10 → Cell.operand c 1 = none → Cell.index c = 0 →
     Cell.count c = 1 → exec .read s = .next { s with
       fresh := s.fresh + 1
       cells := { s.cells with
         inHand := none
         responses := s.cells.responses ++ [(Cell.reply c).made .done 1
           (bytesNat s.cells.headerErrors ++ bytesNat s.cells.crcErrors ++ bytesNat s.cells.dropped ++ [s.rx.lock.code] ++
             bytes32 s.currentTime ++
             [BitVec.ofNat 8 s.cells.requests.length, BitVec.ofNat 8 s.cells.forward.length,
               BitVec.ofNat 8 s.cells.responses.length,
               BitVec.ofNat 8 (1 + s.arbiter.directives.length + (if s.arbiter.probe.isSome then 1 else 0) +
                 (match s.engine with | some f => f.op.reserved | none => 0))])] } }) ∧
  (∀ (s : State) (v : TableView) (p : Prog), s.SlotsKept → s.tableView 0 0 = some v → ∃ blocks : Byte,
     (∀ l, s.meters[p].window = some l → blocks = BitVec.ofNat 8 l.length) ∧
     v.records[(p : Nat)]? = some (
       [BitVec.ofNat 8 p, s.progs[p].state.code, BitVec.ofNat 8 s.progs[p].profile, s.progs[p].generation,
         mark (decide (s.progs[p].presence = .present)) 0 ||| mark (decide (s.progs[p].reference = .present)) 1 |||
           mark s.meters[p].resetMark 2 ||| mark s.meters[p].window.isSome 3 ||| mark s.gains[p].snap 4 |||
           mark s.gains[p].pressure 5,
         BitVec.ofNat 8 s.progs[p].silentRun, BitVec.ofNat 8 s.progs[p].skipped, BitVec.ofNat 8 (s.members p).length] ++
       ((List.range 8).map fun k => ((s.members p)[k]?.map fun i : SlotNo => BitVec.ofNat 8 i).getD 0xFF) ++
       [blocks, BitVec.ofNat 8 s.meters[p].ring.length] ++ bytes32 (BitVec.ofNat 32 s.meters[p].total) ++
       bytesOptInt s.meters[p].lastShort ++ bytesOptInt s.meters[p].lastIntegrated ++
       bytesInt s.gains[p].target ++ bytesInt s.gains[p].current ++
       [if s.gains[p].current = s.gains[p].target then 0 else if s.gains[p].current < s.gains[p].target then 1 else 2,
         BitVec.ofNat 8 s.gains[p].staged.length] ++ bytesNat s.gains[p].reduction ++
       bytesInt (max (-4000) (s.gains[p].current - 10 * s.gains[p].reduction)) ++
       [BitVec.ofNat 8 s.gains[p].guardLength, BitVec.ofNat 8 s.gains[p].guardCount])) ∧
  (∀ (s : State) (v : TableView) (i : SlotNo), s.tableView 1 0 = some v → v.records[(i : Nat)]? = some [BitVec.ofNat 8
     (match s.slots[i] with
       | .pass => 0
       | .member p w => 64 + 16 * w.code.toNat + p
       | .measure p w => 128 + 16 * w.code.toNat + p
       | .mute => 192)]) ∧
  (∀ (s : State) (v : TableView) (q : ProfileNo), s.tableView 2 0 = some v → v.records[(q : Nat)]? = some (
     bytesInt s.profiles[q].target ++ [s.profiles[q].basis.code] ++ bytesInt s.profiles[q].absoluteGate ++
     bytesInt s.profiles[q].relativeOffset ++ bytesInt s.profiles[q].presenceThreshold ++
     [BitVec.ofNat 8 s.profiles[q].silenceWindows] ++ bytesInt s.profiles[q].tolerance ++
     [BitVec.ofNat 8 s.profiles[q].lawTable] ++ bytesInt s.profiles[q].gainMin ++ bytesInt s.profiles[q].gainMax ++
     bytesInt s.profiles[q].initialGain ++
     [BitVec.ofNat 8 s.profiles[q].raiseSlew, BitVec.ofNat 8 s.profiles[q].lowerSlew] ++ bytesInt s.profiles[q].ceiling ++
     [BitVec.ofNat 8 s.profiles[q].guardRelease, BitVec.ofNat 8 s.profiles[q].pressureThreshold] ++
     [if ∃ p : Prog, s.progs[p].state ≠ .unused ∧ s.progs[p].profile = q then 1 else 0])) ∧
  (∀ (s : State) (v : TableView) (k : TableNo) (letter : Bank) (bank : LawBank),
     letter = s.laws[k].active → bank = (match letter with | .a => s.laws[k].bankA | .b => s.laws[k].bankB) →
     s.tableView 3 k = some v →
     v.lead = [letter.code, BitVec.ofNat 8 bank.count,
       mark s.laws[k].pending 0 ||| mark (decide (s.lawMark = some (k, letter))) 1, 0xFF] ∧
     ∀ j : Fin 32, v.records[(j : Nat)]? = some (bytesInt bank.points[j].deviation ++ bytesInt bank.points[j].gain)) ∧
  (∀ (s : State) (v : TableView) (k : TableNo) (letter : Bank) (bank : LawBank),
     letter ≠ s.laws[k].active → bank = (match letter with | .a => s.laws[k].bankA | .b => s.laws[k].bankB) →
     s.tableView 4 k = some v →
     v.lead = [letter.code, BitVec.ofNat 8 bank.count,
       mark s.laws[k].pending 0 ||| mark (decide (s.lawMark = some (k, letter))) 1 ||| mark bank.valid 2,
       (bank.firstBad.map fun n => BitVec.ofNat 8 n).getD 0xFF] ∧
     ∀ j : Fin 32, v.records[(j : Nat)]? = some (bytesInt bank.points[j].deviation ++ bytesInt bank.points[j].gain)) ∧
  (∀ (s : State) (v : TableView), s.tableView 5 0 = some v →
     v.lead = [BitVec.ofNat 8 s.cues.length, BitVec.ofNat 8 s.notice.warnLevel] ++ bytes16 s.owed ∧
     ∀ (k : Nat) (c : Cue), s.cues[k]? = some c → ∃ profile : Byte, (∀ q, c.profile = some q → profile = BitVec.ofNat 8 q) ∧
       v.records[k]? = some ([BitVec.ofNat 8 c.prog] ++ bytes32 c.block ++
         [c.kind.code, mark c.profile.isSome 0 ||| mark c.gain.isSome 1 ||| mark c.snap 2 ||| mark c.due 3 ||| mark c.late 4 |||
           mark (s.eligible c) 5, profile] ++ bytesOptInt c.gain)) ∧
  (∀ (s : State) (v : TableView) (p : Prog), s.tableView 6 p = some v → ∀ (k : Nat) (e : Staged), s.gains[p].staged[k]? = some e →
     v.records[k]? = some (bytes32 e.boundary ++ [e.kind.code, mark e.gain.isSome 0 ||| mark e.snap 1 ||| mark e.late 2 |||
       mark (before e.boundary s.currentTime) 3] ++ bytesOptInt e.gain)) ∧
  (∀ (s : State) (v w : TableView) (p : Prog), s.tableView 7 p = some v → s.tableView 8 p = some w →
     (∀ k : Fin 300, v.records[(k : Nat)]? = some (bytesNat s.meters[p].histogram[k])) ∧
     ∀ (k : Nat) (l : Int), s.meters[p].ring[k]? = some l → w.records[k]? = some (bytesInt l)) ∧
  (∀ (s : State) (v : TableView), s.tableView 9 0 = some v → ∃ r : Nat → Byte, v.records = [(List.range 24).map r] ∧
     r 0 = BitVec.ofNat 8 s.arbiter.directives.length ∧
     (∀ (k : Nat) (d : Directive), k < 4 → s.arbiter.directives[k]? = some d →
       r (1 + 2 * k) = d.op.code ∧ r (2 + 2 * k) = mark d.abort 7 ||| BitVec.ofNat 8 d.prog) ∧
     (s.arbiter.probe = none → (r 9).getLsbD 7 = false) ∧
     (∀ e, s.arbiter.probe = some e →
       r 9 = 0x80 ||| mark e.abort 6 ||| BitVec.ofNat 8 e.prog ∧ r 10 = BitVec.ofNat 8 e.profile) ∧
     r 11 = BitVec.ofNat 8 (s.cues.filter s.eligible).length ∧
     [r 12, r 13] = bytes16 s.arbiter.rescale ∧ [r 14, r 15] = bytes16 s.arbiter.retune ∧
     r 16 = mark s.arbiter.retuneOn 0 ||| mark s.arbiter.rescaleOn 1 ∧
     r 17 = (s.arbiter.rescalePointer.map fun p => BitVec.ofNat 8 p).getD 0xFF ∧
     r 18 = (s.arbiter.retunePointer.map fun p => BitVec.ofNat 8 p).getD 0xFF ∧
     (s.engine = none → r 19 = 0) ∧
     (∀ f, s.engine = some f → r 19 = f.op.code ∧ r 20 = BitVec.ofNat 8 f.prog ∧ r 21 = f.snap.generation ∧
       (f.snap.bank = none → (r 22).getLsbD 7 = false) ∧
       (∀ k letter, f.snap.bank = some (k, letter) → r 22 = 0x80 ||| (letter.code <<< 2) ||| BitVec.ofNat 8 k) ∧
       (f.boundaries ≤ 1 → r 23 = BitVec.ofNat 8 f.boundaries ||| mark f.discard 1))) ∧
  ([ProgState.unused, .dormant, .tracking, .held, .overridden].map (·.code) = [0, 1, 2, 3, 4] ∧
    [LockState.search, .confirm, .settling, .running].map (·.code) = [0, 1, 2, 3] ∧
    [CueKind.segment, .switch, .hold, .release, .preset].map (·.code) = [0, 1, 2, 3, 4] ∧
    [WeightClass.full, .side, .none].map (·.code) = [0, 1, 2] ∧ [Basis.short, .segment, .blend].map (·.code) = [0, 1, 2] ∧
    [Bank.a, .b].map (·.code) = [0, 1] ∧
    ∀ (c : Cue) (d : DirectiveOp) (r : Reply) (q : ProfileNo), Operation.retune.code = 1 ∧ Operation.rescale.code = 2 ∧
      (Operation.cue c).code = 3 ∧ (Operation.directive d r).code = d.code ∧ (Operation.probe q r).code = 0x0E ∧
      (∀ expected new, (DirectiveOp.exchange expected new).code = 0x0B) ∧ (∀ gain snap, (DirectiveOp.force gain snap).code = 0x0C) ∧
      DirectiveOp.release.code = 0x0D)

/-- RESTART: every block takes its RESTART effect, the link side, the profiles, the law tables, the forward queue and the notice
settings carry on, and RESTARTED is claimed against the mask and the enables as they stand. -/
def Obligations.RestartResetsAllButTheLinkSide : Prop :=
  ∀ (s : State) (c : Cell), s.holds 0x15 c → exec .restart s = .next
    { s with
      tx := { s.tx with source := if s.tx.source = .response then .gone else s.tx.source }
      slots := Vector.replicate 64 .pass
      progs := Vector.replicate 16 ProgRecord.reset
      meters := Vector.replicate 16 MeterRecord.reset
      heldStarts := none
      lawMark := none
      arbiter := Arbiter.reset
      engine := none
      cues := []
      owed := 0
      gains := Vector.replicate 16 GainRecord.reset
      cells := { s.cells with
        requests := [], inHand := none, headerErrors := 0, crcErrors := 0, dropped := 0
        responses := [(Cell.reply c).made .done (Cell.byte c 7) []] }
      notice := { s.notice with
        flags := 0b10
        state := if s.notice.enable.getLsbD 1 = true ∧ s.notice.mask < 6 then .pending else .none } }

/-! ### Conditions and notices -/

/-- CONDITIONS_READ answers the ten flags; CONDITIONS_CLEAR clears the flags named, and with a payload below 2 bytes is answered
BAD_VALUE; NOTICE_SET checks its operands in order and replaces its four values together. Nothing else changes. -/
def Obligations.ConditionAndNoticeRequests : Prop :=
  ((∀ (s : State) (c : Cell), s.holds 0x12 c →
     exec .conditionsRead s = .next (s.answer c .done (bytes16 (s.notice.flags.setWidth 16)))) ∧
   (∀ (s : State) (c : Cell) (set : BitVec 16), s.holds 0x13 c → Cell.operand16 c 0 = some set →
     exec .conditionsClear s = .next
       (State.answer { s with notice := { s.notice with flags := s.notice.flags &&& ~~~(set.setWidth 10) } } c .done [])) ∧
   (∀ (s : State) (c : Cell), s.holds 0x13 c → Cell.payloadLength c < 2 →
     exec .conditionsClear s = .next (s.answer c .badValue []))) ∧
  (∀ (s : State) (c : Cell), s.holds 0x14 c →
     (Cell.payloadLength c < 5 → exec .noticeSet s = .next (s.answer c .badValue [])) ∧
     (∀ mask enable destination level, Cell.operand c 0 = some mask → Cell.operand16 c 1 = some enable →
       Cell.operand c 3 = some destination → Cell.operand c 4 = some level →
       ((7 < mask.toNat ∨ destination = 0 ∨ level = 0 ∨ 32 < level.toNat) →
         exec .noticeSet s = .next (s.answer c .badValue [])) ∧
       (mask.toNat ≤ 7 → destination ≠ 0 → level ≠ 0 → level.toNat ≤ 32 →
         exec .noticeSet s = .next (State.answer { s with notice := { s.notice with
           mask := mask.toNat, enable := enable.setWidth 10, destination := destination, warnLevel := level.toNat } } c
           .done []))))

/-- The ten conditions have the bits and levels of section 9.1. A claim sets its flag and no other. It makes a notice owed where it
takes the flag from clear to set and its level is 7, or it is enabled at a level above the mask. -/
def Obligations.AClaimSetsItsFlag : Prop :=
  [Condition.linkLost, .restarted, .timeSlip, .cueLate, .cueWarn, .cueSkipped, .presence, .guardPressure, .cellLoss,
    .swapDone].map (fun k => (k.bit, k.level)) =
    [(0, 7), (1, 6), (2, 5), (3, 4), (4, 4), (5, 3), (6, 3), (7, 3), (8, 2), (9, 1)] ∧
  ∀ (s : State) (k : Condition),
    (s.notice.flags.getLsbD k.bit = true → s.claim k = s) ∧
    (s.notice.flags.getLsbD k.bit = false → s.claim k = { s with notice := { s.notice with
      flags := s.notice.flags ||| BitVec.twoPow 10 k.bit
      state :=
        if k.level = 7 ∨ (s.notice.enable.getLsbD k.bit = true ∧ s.notice.mask < k.level) then
          (match s.notice.state with
            | .none => .pending
            | .pending => .pending
            | .sending => .sendingAgain
            | .sendingAgain => .sendingAgain)
        else s.notice.state } })

/-! ### Slots and programmes -/

/-- SLOT_MAP: the six checks of R29 in their order, each refusal leaving the slot map and every record as it was; one that passes
gives each named slot its new entry and increments the generation of the named programme once where a member changed. The mode
and the class are payload bytes 0 and 1, with the codes of section 8.12; a MEASURE slot takes no class NONE. -/
def Obligations.SlotMapChecksAndMaps : Prop :=
  (∀ c : Cell, (Cell.operand c 0 = none → Cell.mapMode c = none) ∧ ∀ b, Cell.operand c 0 = some b →
     (b = 0 → Cell.mapMode c = some .pass) ∧ (b = 3 → Cell.mapMode c = some .mute) ∧ (3 < b.toNat → Cell.mapMode c = none) ∧
     (b = 1 → (∀ w : WeightClass, Cell.operand c 1 = some w.code → Cell.mapMode c = some (.member w)) ∧
       ((∀ w : WeightClass, Cell.operand c 1 ≠ some w.code) → Cell.mapMode c = none)) ∧
     (b = 2 → (∀ w : WeightClass, w ≠ .none → Cell.operand c 1 = some w.code → Cell.mapMode c = some (.measure w)) ∧
       ((∀ w : WeightClass, w ≠ .none → Cell.operand c 1 ≠ some w.code) → Cell.mapMode c = none))) ∧
  (MapMode.pass.gives = false ∧ MapMode.mute.gives = false ∧
     ∀ w, (MapMode.member w).gives = true ∧ (MapMode.measure w).gives = true) ∧
  (∀ (s : State) (c : Cell), s.holds 0x06 c →
     ((Cell.count c < 1 ∨ 16 < Cell.count c ∨ Cell.mapMode c = none) → exec .slotMap s = .next (s.answer c .badValue [])) ∧
     (∀ m, 1 ≤ Cell.count c → Cell.count c ≤ 16 → Cell.mapMode c = some m →
       ((63 < Cell.index c ∨ 64 < Cell.index c + Cell.count c ∨ Cell.programme c = none) →
         exec .slotMap s = .next (s.answer c .badIndex [])) ∧
       (∀ p, Cell.index c ≤ 63 → Cell.index c + Cell.count c ≤ 64 → Cell.programme c = some p →
         (m.gives = true → s.progs[p].state = .unused → exec .slotMap s = .next (s.answer c .badState [])) ∧
         ((m.gives = true → s.progs[p].state ≠ .unused) →
           ((∃ i : SlotNo, Cell.index c ≤ i ∧ (i : Nat) < Cell.index c + Cell.count c ∧
               ((∃ q, s.slots[i].owner = some q ∧ q ≠ p) ∨ (m.gives = true ∧ s.slots[i] = .mute))) →
             exec .slotMap s = .next (s.answer c .noRoom [])) ∧
           (m.gives = true → 8 < (s.members p).length +
               ((namedSlots (Cell.index c) (Cell.count c)).filter fun i => s.slots[i].owner != some p).length →
             exec .slotMap s = .next (s.answer c .noRoom [])))))) ∧
  (∀ (s : State) (c : Cell) (m : MapMode) (p : Prog), s.holds 0x06 c → 1 ≤ Cell.count c → Cell.count c ≤ 16 →
     Cell.mapMode c = some m → Cell.index c + Cell.count c ≤ 64 → Cell.programme c = some p →
     (m.gives = true → s.progs[p].state ≠ .unused) →
     (∀ i : SlotNo, Cell.index c ≤ i → (i : Nat) < Cell.index c + Cell.count c →
       (∀ q, s.slots[i].owner = some q → q = p) ∧ (m.gives = true → s.slots[i] ≠ .mute)) →
     (m.gives = true → (s.members p).length +
       ((namedSlots (Cell.index c) (Cell.count c)).filter fun i => s.slots[i].owner != some p).length ≤ 8) →
     ∃ new : Vector SlotEntry 64,
       (∀ i : SlotNo, new[i] = if Cell.index c ≤ i ∧ (i : Nat) < Cell.index c + Cell.count c then
         (match m with | .pass => .pass | .member w => .member p w | .measure w => .measure p w | .mute => .mute)
         else s.slots[i]) ∧
       exec .slotMap s = .next (State.answer { s with
         slots := new
         progs := if ∃ i : SlotNo, new[i] ≠ s.slots[i] ∧ (new[i].owner = some p ∨ s.slots[i].owner = some p) then
             s.progs.set p { s.progs[p] with generation := s.progs[p].generation + 1 }
           else s.progs } c .done []))

/-- OPEN: the checks in their order; an accepted OPEN makes the programme DORMANT under the profile with one increment of its
generation, starts its segment, and sets its gains to the initial gain. SEGMENT_RESET: the checks; an accepted request sets the
segment-reset mark and nothing else. -/
def Obligations.OpenAndSegmentResetRequests : Prop :=
  (∀ (s : State) (c : Cell), s.holds 0x07 c →
    (Cell.profileOperand c 0 = none → exec .openProgramme s = .next (s.answer c .badValue [])) ∧
    (∀ q, Cell.profileOperand c 0 = some q →
      (Cell.programme c = none → exec .openProgramme s = .next (s.answer c .badIndex [])) ∧
      (∀ p, Cell.programme c = some p →
        (s.progs[p].state ≠ .unused → exec .openProgramme s = .next (s.answer c .badState [])) ∧
        (s.progs[p].state = .unused → exec .openProgramme s = .next (State.answer { s with
          progs := s.progs.set p { s.progs[p] with
            state := .dormant, profile := q, silentRun := 0, skipped := 0, generation := s.progs[p].generation + 1 }
          meters := s.meters.set p { s.meters[p] with
            sum := 0, frames := 0, window := none, complete := none, ring := [], histogram := Vector.replicate 300 0
            total := 0, lastShort := none, lastIntegrated := none }
          gains := s.gains.set p { s.gains[p] with
            target := s.profiles[q].initialGain, current := s.profiles[q].initialGain, reduction := 0, guardLength := 0
            guardCount := 0, pressure := false } } c .done []))))) ∧
  (∀ (s : State) (c : Cell), s.holds 0x10 c →
    (Cell.programme c = none → exec .segmentReset s = .next (s.answer c .badIndex [])) ∧
    (∀ p, Cell.programme c = some p →
      (s.progs[p].state = .unused → exec .segmentReset s = .next (s.answer c .badState [])) ∧
      (s.progs[p].state ≠ .unused → exec .segmentReset s = .next
        (State.answer { s with meters := s.meters.set p { s.meters[p] with resetMark := true } } c .done []))))

/-- CLOSE: the checks; an accepted CLOSE makes the programme UNUSED, frees its slots and presence, removes its cues and its places
in the sets, marks its directives, its PROBE and its operation in flight, and clears its gain and measurement in progress. A segment
start that a boundary has handed the Meter and the Meter still holds is made first (R61, R125): assumption 17. Where it empties a
staged list of 2 entries of a programme with a DUE entry while a RETUNE or RESCALE is in flight, that operation may be cancelled or
stay: R37 leaves it open, and assumption 28 takes a free value. -/
def Obligations.CloseTearsTheProgrammeDown : Prop :=
  ∀ (s : State) (c : Cell), s.holds 0x08 c →
    (Cell.programme c = none → exec .closeProgramme s = .next (s.answer c .badIndex [])) ∧
    (∀ p u, Cell.programme c = some p →
      u = (if ∃ set, s.heldStarts = some set ∧ ProgSet.mem set p = true then { s with
          meters := s.meters.set p { s.meters[p] with
            window := s.meters[p].window.map fun _ => [], complete := none, ring := []
            histogram := Vector.replicate 300 0, total := 0, lastShort := none, lastIntegrated := none }
          progs := s.progs.set p { s.progs[p] with generation := s.progs[p].generation + 1 } }
        else s) →
      (s.progs[p].state = .unused → exec .closeProgramme s = .next (s.answer c .badState [])) ∧
      (s.progs[p].state ≠ .unused → ∃ reported : State,
        ((2 ≤ s.gains[p].staged.length ∧ (∃ e ∈ s.cues, e.prog = p ∧ e.due = true) ∧
            ∃ f, s.engine = some f ∧ (f.op = .retune ∨ f.op = .rescale)) →
          reported = { s with fresh := s.fresh + 1 } ∨ reported = State.cancelAutomatic { s with fresh := s.fresh + 1 }) ∧
        (¬(2 ≤ s.gains[p].staged.length ∧ (∃ e ∈ s.cues, e.prog = p ∧ e.due = true) ∧
            ∃ f, s.engine = some f ∧ (f.op = .retune ∨ f.op = .rescale)) → reported = s) ∧
        exec .closeProgramme s = .next (State.answer (State.claimIf { reported with
          progs := u.progs.set p { u.progs[p] with
            state := .unused, generation := u.progs[p].generation + 1, presence := .silent, silentRun := 0 }
          slots := Vector.ofFn fun i : SlotNo => if s.slots[i].owner = some p then .pass else s.slots[i]
          cues := s.cues.filter fun e => e.prog != p
          owed := ProgSet.erase s.owed p
          arbiter := { reported.arbiter with
            retune := ProgSet.erase reported.arbiter.retune p
            rescale := ProgSet.erase reported.arbiter.rescale p
            directives := s.arbiter.directives.map fun d => if d.prog = p then { d with abort := true } else d
            probe := s.arbiter.probe.map fun e => if e.prog = p then { e with abort := true } else e }
          engine := reported.engine.map fun f => if f.prog = p then { f with discard := true } else f
          gains := s.gains.set p { s.gains[p] with
            snap := false, staged := [], reduction := 0, guardLength := 0, guardCount := 0, pressure := false }
          meters := u.meters.set p { u.meters[p] with
            sum := 0, frames := 0, window := none, complete := none, resetMark := false }
          heldStarts := s.heldStarts.map fun set => ProgSet.erase set p }
        (decide (s.progs[p].presence = .present ∧ s.progs[p].reference = .present)) .presence) c .done [])))

/-- PRESENCE_READ answers the presence and the differing set as they stand and then copies presence into the reference, after
which no programme differs; an UNUSED programme is answered SILENT. -/
def Obligations.PresenceReadMovesTheReference : Prop :=
  ∀ (s : State) (c : Cell), s.holds 0x0F c → ∃ t, exec .presenceRead s = .next t ∧
    t = State.answer { s with
        progs := Vector.ofFn fun p : Prog => { s.progs[p] with reference := s.progs[p].presence } } c .done
      (bytes16 (progSetOf fun p => s.progs[p].presence == .present) ++
        bytes16 (progSetOf fun p => s.progs[p].presence != s.progs[p].reference)) ∧
    t.differing = 0 ∧
    (s.PresenceKept → ∀ p : Prog, s.progs[p].state = .unused →
      ProgSet.mem (progSetOf fun p => s.progs[p].presence == .present) p = false)

/-! ### The stores -/

/-- PROFILE_WRITE: which payload bytes give which field, the range of each field and its relation with earlier ones, and the record
of fields that all pass; the three checks in their order, with the programme or the first bad field named; an accepted write stores a
legal record whole and changes nothing else. -/
def Obligations.ProfileWriteStoresALegalRecord : Prop :=
  (∀ (c : Cell) (signed byte : Nat → Option Int), (∀ k, signed k = (Cell.operand16 c k).map fun w => w.toInt) →
     (∀ k, byte k = (Cell.operand c k).map fun b => (b.toNat : Int)) →
     Cell.profileFields c = [signed 0, byte 2, signed 3, signed 5, signed 7, byte 9,
       (Cell.operand16 c 10).map fun w => (w.toNat : Int), byte 12, signed 13, signed 15, signed 17, byte 19, byte 20,
       signed 21, byte 23, byte 24]) ∧
  (∀ (fields : List (Option Int)) (n : Nat), 1 ≤ n → n ≤ 16 → (∀ k, 1 ≤ k → k < n → fieldPasses fields k = true) →
     (fieldPasses fields n = true ↔ ∃ v low high : Int, fields[n - 1]? = some (some v) ∧
       ([(-400, -100), (0, 2), (-700, -300), (-200, -10), (-700, -200), (1, 255), (0, 300), (0, 3), (-4000, 2000),
         (-4000, 2000), (-4000, 2000), (0, 255), (0, 255), (-200, 0), (1, 50), (1, 75)] : List (Int × Int))[n - 1]? =
         some (low, high) ∧ low ≤ v ∧ v ≤ high ∧
       (∀ w, (n = 10 ∨ n = 11) → fields[8]? = some (some w) → w ≤ v) ∧
       (∀ w, n = 11 → fields[9]? = some (some w) → v ≤ w))) ∧
  (∀ (fields : List (Option Int)) (v : Nat → Int) (q : Profile), (∀ n, 1 ≤ n → n ≤ 16 → fields[n - 1]? = some (some (v n))) →
     (∀ n, 1 ≤ n → n ≤ 16 → fieldPasses fields n = true) → q = profileRecord fields →
     q.target = v 1 ∧ q.basis = (if v 2 = 0 then .short else if v 2 = 1 then .segment else .blend) ∧
     q.absoluteGate = v 3 ∧ q.relativeOffset = v 4 ∧ q.presenceThreshold = v 5 ∧ (q.silenceWindows : Int) = v 6 ∧
     q.tolerance = v 7 ∧ ((q.lawTable : Nat) : Int) = v 8 ∧ q.gainMin = v 9 ∧ q.gainMax = v 10 ∧ q.initialGain = v 11 ∧
     (q.raiseSlew : Int) = v 12 ∧ (q.lowerSlew : Int) = v 13 ∧ q.ceiling = v 14 ∧ (q.guardRelease : Int) = v 15 ∧
     (q.pressureThreshold : Int) = v 16) ∧
  ∀ (s : State) (c : Cell), s.holds 0x03 c →
    (8 ≤ Cell.target c → exec .profileWrite s = .next (s.answer c .badIndex [])) ∧
    (∀ q : ProfileNo, Cell.target c = q →
      (∀ p : Prog, s.progs[p].state ≠ .unused → s.progs[p].profile = q →
        (∀ r : Prog, r < p → ¬(s.progs[r].state ≠ .unused ∧ s.progs[r].profile = q)) →
        exec .profileWrite s = .next (s.answer c .badState [BitVec.ofNat 8 p])) ∧
      ((∀ p : Prog, ¬(s.progs[p].state ≠ .unused ∧ s.progs[p].profile = q)) →
        (∀ n, 1 ≤ n → n ≤ 16 → fieldPasses (Cell.profileFields c) n = false →
          (∀ k, 1 ≤ k → k < n → fieldPasses (Cell.profileFields c) k = true) →
          exec .profileWrite s = .next (s.answer c .badValue [BitVec.ofNat 8 n])) ∧
        ((∀ n, 1 ≤ n → n ≤ 16 → fieldPasses (Cell.profileFields c) n = true) →
          (profileRecord (Cell.profileFields c)).Legal ∧
          exec .profileWrite s = .next
            (State.answer { s with profiles := s.profiles.set q (profileRecord (Cell.profileFields c)) } c .done []))))

/-- LAW_LOAD: the six checks of R79 in their order, each refusal leaving every bank, count and mark as it was; one that passes writes
its points into the shadow bank in the order given, and the new point count where it carries one, and nothing else. The first bad
point is the lowest whose deviation lies outside -40.0 to +40.0 LU or whose gain lies outside -40.00 to +20.00 dB. -/
def Obligations.LawLoadChecksAndWrites : Prop :=
  (∀ (c : Cell) (good : Nat → Prop),
     (∀ k, good k ↔ ∃ deviation gain : Int, (Cell.operand16 c (4 * k)).map (·.toInt) = some deviation ∧
       (Cell.operand16 c (4 * k + 2)).map (·.toInt) = some gain ∧
       -400 ≤ deviation ∧ deviation ≤ 400 ∧ -4000 ≤ gain ∧ gain ≤ 2000) →
     (firstBadPoint (Cell.loadPoints c) (Cell.index c) = none ↔ ∀ k < Cell.count c, good k) ∧
     (∀ j, firstBadPoint (Cell.loadPoints c) (Cell.index c) = some j ↔
       ∃ k < Cell.count c, j = Cell.index c + k ∧ ¬good k ∧ ∀ m < k, good m)) ∧
  (∀ (s : State) (c : Cell), s.holds 0x04 c →
     (4 ≤ Cell.target c → exec .lawLoad s = .next (s.answer c .badIndex [])) ∧
     (∀ k : TableNo, Cell.target c = k →
       ((Cell.count c < 1 ∨ 8 < Cell.count c ∨ Cell.payloadLength c < 4 * Cell.count c) →
         exec .lawLoad s = .next (s.answer c .badValue [])) ∧
       (1 ≤ Cell.count c → Cell.count c ≤ 8 → 4 * Cell.count c ≤ Cell.payloadLength c →
         (32 < Cell.index c + Cell.count c → exec .lawLoad s = .next (s.answer c .badIndex [])) ∧
         (Cell.index c + Cell.count c ≤ 32 →
           (∀ j, firstBadPoint (Cell.loadPoints c) (Cell.index c) = some j →
             exec .lawLoad s = .next (s.answer c .badValue [BitVec.ofNat 8 j])) ∧
           (firstBadPoint (Cell.loadPoints c) (Cell.index c) = none →
             (∀ n, Cell.operand c (4 * Cell.count c) = some n → 32 < n.toNat →
               exec .lawLoad s = .next (s.answer c .badValue [0xFF])) ∧
             ((∀ n, Cell.operand c (4 * Cell.count c) = some n → n.toNat ≤ 32) →
               (s.laws[k].pending = true ∨ s.lawMark = some (k, s.laws[k].active.other)) →
               exec .lawLoad s = .next (s.answer c .busy []))))))) ∧
  (∀ (s : State) (c : Cell) (k : TableNo), s.holds 0x04 c → Cell.target c = k → 1 ≤ Cell.count c → Cell.count c ≤ 8 →
     4 * Cell.count c ≤ Cell.payloadLength c → Cell.index c + Cell.count c ≤ 32 →
     firstBadPoint (Cell.loadPoints c) (Cell.index c) = none →
     (∀ n, Cell.operand c (4 * Cell.count c) = some n → n.toNat ≤ 32) →
     s.laws[k].pending = false → s.lawMark ≠ some (k, s.laws[k].active.other) →
     ∃ table : LawTable,
       exec .lawLoad s = .next (State.answer { s with laws := s.laws.set k table } c .done []) ∧
       table.active = s.laws[k].active ∧ table.pending = false ∧ table.activeBank = s.laws[k].activeBank ∧
       table.shadow.count = ((Cell.operand c (4 * Cell.count c)).map (·.toNat)).getD s.laws[k].shadow.count ∧
       ∀ j : Fin 32,
         (Cell.index c ≤ j → (j : Nat) < Cell.index c + Cell.count c →
           some table.shadow.points[j].deviation = Cell.operandInt c (4 * (j - Cell.index c)) ∧
           some table.shadow.points[j].gain = Cell.operandInt c (4 * (j - Cell.index c) + 2)) ∧
         (¬(Cell.index c ≤ j ∧ (j : Nat) < Cell.index c + Cell.count c) →
           table.shadow.points[j] = s.laws[k].shadow.points[j]))

/-- LAW_SWAP: an empty set and a table above 3 are refused, then a pending table, then a shadow bank that is not valid, each
naming the lowest; an accepted request marks every named table and changes nothing else. That a request without its set operand is
answered BAD_VALUE is the model's choice: assumption 9. -/
def Obligations.LawSwapMarksTheNamedTables : Prop :=
  (∀ (s : State) (c : Cell), s.holds 0x05 c → Cell.operand c 0 = none → exec .lawSwap s = .next (s.answer c .badValue [])) ∧
  ∀ (s : State) (c : Cell) (set : Byte), s.holds 0x05 c → Cell.operand c 0 = some set →
    (set = 0 → exec .lawSwap s = .next (s.answer c .badValue [])) ∧
    (16 ≤ set.toNat → exec .lawSwap s = .next (s.answer c .badIndex [])) ∧
    (set ≠ 0 → set.toNat < 16 →
      (∀ k : TableNo, set.getLsbD k = true → s.laws[k].pending = true →
        (∀ j : TableNo, j < k → set.getLsbD j = true → s.laws[j].pending = false) →
        exec .lawSwap s = .next (s.answer c .busy [BitVec.ofNat 8 k])) ∧
      ((∀ k : TableNo, set.getLsbD k = true → s.laws[k].pending = false) →
        (∀ (k : TableNo) (bad : Nat), set.getLsbD k = true → s.laws[k].shadow.firstBad = some bad →
          (∀ j : TableNo, j < k → set.getLsbD j = true → s.laws[j].shadow.valid = true) →
          exec .lawSwap s = .next (s.answer c .badValue [BitVec.ofNat 8 k, BitVec.ofNat 8 bad])) ∧
        ((∀ k : TableNo, set.getLsbD k = true → s.laws[k].shadow.valid = true) →
          exec .lawSwap s = .next (State.answer { s with
            laws := Vector.ofFn fun k : TableNo =>
              if set.getLsbD k = true then { s.laws[k] with pending := true } else s.laws[k] } c .done []))))

/-- A bank is valid exactly where it has 2 points or more with rising deviations, and the first bad point of a bank that is not is
the count below 2, else the lowest point that does not rise. -/
def Obligations.BankValidityAndFirstBadPoint : Prop :=
  ∀ b : LawBank, b.count ≤ 32 →
    (b.valid = true ↔ 2 ≤ b.count ∧ ∀ k (_ : 1 ≤ k) (_ : k < b.count) (_ : k < 32),
      b.points[k - 1].deviation < b.points[k].deviation) ∧
    (b.count < 2 → b.firstBad = some b.count) ∧
    (∀ j, 2 ≤ b.count → (b.firstBad = some j ↔ 1 ≤ j ∧ j < b.count ∧
      (∀ _ : j < 32, b.points[j].deviation ≤ b.points[j - 1].deviation) ∧
      ∀ k (_ : 1 ≤ k) (_ : k < j) (_ : k < 32), b.points[k - 1].deviation < b.points[k].deviation))

/-- The gain of a valid law: the first point's gain at or below its deviation, the last point's at or above its own, a point's
gain at its deviation, and between two neighbours the straight line, rounded to the nearest 0.01 dB with halves toward the
higher value; and that lies between the two gains. -/
def Obligations.LawsAreEvaluatedByInterpolation : Prop :=
  ∀ (b : LawBank) (d : Int), b.count ≤ 32 → b.valid = true → ∀ x g : Nat → Int,
    (∀ k (_ : k < 32), x k = b.points[k].deviation ∧ g k = b.points[k].gain) →
    (d ≤ x 0 → b.gainAt d = g 0) ∧
    (x (b.count - 1) ≤ d → b.gainAt d = g (b.count - 1)) ∧
    (∀ k, k < b.count → d = x k → b.gainAt d = g k) ∧
    (∀ k, k + 1 < b.count → x k < d → d < x (k + 1) →
      b.gainAt d = ⌊(g k : ℚ) + (g (k + 1) - g k) * (d - x k) / (x (k + 1) - x k) + 1 / 2⌋ ∧
      min (g k) (g (k + 1)) ≤ b.gainAt d ∧ b.gainAt d ≤ max (g k) (g (k + 1)))

/-! ### Cues -/

/-- CUE_POST: the seven checks of R118 in their order, each refusal leaving everything but its response as it was; the optional
fields that each kind of cue takes and requires; and the operands that pass the third check. A due time is rounded up to a multiple
of 64 and the current time down to one, and link times are compared modulo 2^32 (R117). -/
def Obligations.CuePostChecksItsFieldsInOrder : Prop :=
  (∀ (s : State) (c : Cell), s.holds 0x09 c →
     (Cell.programme c = none → exec .cuePost s = .next (s.answer c .badIndex [])) ∧
     (∀ p, Cell.programme c = some p →
       (s.progs[p].state = .unused → exec .cuePost s = .next (s.answer c .badState [])) ∧
       (s.progs[p].state ≠ .unused →
         (Cell.cueOperands c = none → exec .cuePost s = .next (s.answer c .badValue [])) ∧
         (∀ o d b, Cell.cueOperands c = some o → d = dueBlock o.time → b = currentBoundary s.currentTime →
           (after d b = true → 134217728 < (d - s.currentTime).toNat →
             exec .cuePost s = .next (s.answer c .cueFar (bytes32 d ++ bytes32 s.currentTime))) ∧
           (after d b = false → 768 < (b - d).toNat →
             exec .cuePost s = .next (s.answer c .cueLate (bytes32 d ++ bytes32 s.currentTime))) ∧
           ((after d b = true → (d - s.currentTime).toNat ≤ 134217728) → (after d b = false → (b - d).toNat ≤ 768) →
             ((∃ e ∈ s.cues, e.prog = p ∧ e.block = d ∧ e.due = true) →
               exec .cuePost s = .next (s.answer c .badState (bytes32 d))) ∧
             ((∀ e ∈ s.cues, ¬(e.prog = p ∧ e.block = d)) → 32 ≤ s.cues.length →
               exec .cuePost s = .next (s.answer c .queueFull [BitVec.ofNat 8 s.cues.length]))))))) ∧
  (∀ (k : CueKind) (profile gain snap : Bool), k.takes profile gain snap = true ↔
     (k = .switch → profile = true) ∧ (k = .preset → gain = true) ∧
     (k = .hold ∨ k = .release ∨ k = .preset → profile = false) ∧
     (k = .switch ∨ k = .hold ∨ k = .release → gain = false ∧ snap = false)) ∧
  (∀ (c : Cell) (o : CueOperands), Cell.cueOperands c = some o ↔
     Cell.operand32 c 0 = some o.time ∧ Cell.operand c 4 = some o.kind.code ∧
     (∃ marks, Cell.operand c 5 = some marks ∧ o.snap = marks.getLsbD 2 ∧
       (marks.getLsbD 0 = true → o.profile ≠ none ∧ o.profile = Cell.profileOperand c 6) ∧
       (marks.getLsbD 0 = false → o.profile = none) ∧
       (marks.getLsbD 1 = true → o.gain ≠ none ∧ o.gain = Cell.gainOperand c 7) ∧
       (marks.getLsbD 1 = false → o.gain = none)) ∧
     o.kind.takes o.profile.isSome o.gain.isSome o.snap = true) ∧
  (∀ t u : LinkTime,
     (dueBlock t).toNat = (t.toNat + 63) / 64 * 64 % 4294967296 ∧ (currentBoundary t).toNat = t.toNat / 64 * 64 ∧
     (atOrBefore t u = true ↔ (u.toNat + 4294967296 - t.toNat) % 4294967296 < 2147483648) ∧
     (after t u = true ↔ 2147483648 ≤ (u.toNat + 4294967296 - t.toNat) % 4294967296) ∧
     (before t u = true ↔ 2147483648 ≤ (t.toNat + 4294967296 - u.toNat) % 4294967296))

/-- An accepted CUE_POST: a matching PENDING entry is removed, the new entry goes before the first entry whose due block is after
its own, PENDING or, for a passed block in RUNNING, DUE; a passed block claims CUE_LATE, an insertion that brings the occupancy
up to the warning level claims CUE_WARN, a DUE SEGMENT joins the owed set, and an entry that becomes eligible cancels. -/
def Obligations.CuePostInsertsTheEntry : Prop :=
  ∀ (s : State) (c : Cell) (p : Prog) (o : CueOperands) (d b : LinkTime) (passed due replaced : Bool) (new : Cue)
      (kept cues : List Cue) (u : State),
    s.holds 0x09 c → Cell.programme c = some p → s.progs[p].state ≠ .unused → Cell.cueOperands c = some o →
    d = dueBlock o.time → b = currentBoundary s.currentTime → passed = !after d b →
    (passed = false → (d - s.currentTime).toNat ≤ 134217728) → (passed = true → (b - d).toNat ≤ 768) →
    (∀ e ∈ s.cues, e.prog = p → e.block = d → e.due = false) →
    replaced = s.cues.any (fun e => e.prog == p && e.block == d) → (s.cues.length < 32 ∨ replaced = true) →
    due = (passed && s.rx.lock == .running) →
    new = { prog := p, block := d, kind := o.kind, profile := o.profile, gain := o.gain, snap := o.snap, due := due,
            late := passed } →
    kept = s.cues.filter (fun e => !(e.prog == p && e.block == d)) →
    cues = kept.takeWhile (fun e => !after e.block d) ++ new :: kept.dropWhile (fun e => !after e.block d) →
    u = (State.claimIf { s with
          cues := cues
          owed := if due = true ∧ o.kind = .segment then ProgSet.insert s.owed p else s.owed } passed .cueLate).claimIf
        (decide (replaced = false ∧ s.cues.length < s.notice.warnLevel ∧ s.notice.warnLevel ≤ s.cues.length + 1)) .cueWarn →
    exec .cuePost s = .next ((offerCues s u).answer c .done
      (bytes32 d ++ [mark due 0 ||| mark passed 1 ||| mark replaced 2, BitVec.ofNat 8 cues.length]))

/-- CUE_WITHDRAW: a PENDING entry of the programme and due block is removed and the occupancy answered; a DUE one is left and
answered BAD_STATE; where there is none the answer is BAD_INDEX, as for a programme above 15. A request whose due time is missing is
answered BAD_VALUE where its programme is 15 or below (R171). -/
def Obligations.CueWithdrawRemovesAPendingEntry : Prop :=
  ∀ (s : State) (c : Cell), s.CuesKept → s.holds 0x0A c →
    (Cell.programme c = none → exec .cueWithdraw s = .next (s.answer c .badIndex [])) ∧
    (Cell.programme c ≠ none → Cell.operand32 c 0 = none → exec .cueWithdraw s = .next (s.answer c .badValue [])) ∧
    (∀ p time, Cell.programme c = some p → Cell.operand32 c 0 = some time →
      ((∀ e ∈ s.cues, ¬(e.prog = p ∧ e.block = dueBlock time)) →
        exec .cueWithdraw s = .next (s.answer c .badIndex [])) ∧
      (∀ e ∈ s.cues, e.prog = p → e.block = dueBlock time →
        (e.due = true → exec .cueWithdraw s = .next (s.answer c .badState [])) ∧
        (e.due = false → exec .cueWithdraw s = .next
          (State.answer { s with cues := s.cues.erase e } c .done [BitVec.ofNat 8 (s.cues.length - 1)]))))

/-! ### The arbiter and its sources -/

/-- PROFILE_EXCHANGE, GAIN_FORCE and GAIN_RELEASE: a request that fails its operand checks is answered; one that passes joins the
tail of the directive queue, and its joining cancels. A PROBE that passes fills its slot, or is answered BUSY, and cancels nothing.
Before that, how every request's operands are read: byte by byte from the payload as far as it goes, most significant byte first, the
programme from the target field up to 15, a profile up to 7, a gain from -40.00 to +20.00 dB, and 0xFF for any expected profile. -/
def Obligations.DirectivesAndProbesJoinTheirSources : Prop :=
  (∀ (c : Cell) (i : Nat),
     Cell.operand c i = (if i < (Cell.byte c 8).toNat then some (Cell.byte c (9 + i)) else none) ∧
     (∀ high low, Cell.operand c i = some high → Cell.operand c (i + 1) = some low → Cell.operand16 c i = some (high ++ low)) ∧
     (Cell.operand c i = none ∨ Cell.operand c (i + 1) = none → Cell.operand16 c i = none) ∧
     (∀ high low, Cell.operand16 c i = some high → Cell.operand16 c (i + 2) = some low →
       Cell.operand32 c i = some (high ++ low)) ∧
     (Cell.operand16 c i = none ∨ Cell.operand16 c (i + 2) = none → Cell.operand32 c i = none) ∧
     (∀ p : Prog, Cell.programme c = some p ↔ (Cell.byte c 5).toNat = p) ∧
     (Cell.programme c = none ↔ 15 < (Cell.byte c 5).toNat) ∧
     (∀ q : ProfileNo, Cell.profileOperand c i = some q ↔ ∃ b, Cell.operand c i = some b ∧ b.toNat = q) ∧
     (Cell.profileOperand c i = none ↔ ∀ b, Cell.operand c i = some b → 7 < b.toNat) ∧
     (∀ g : Int, Cell.gainOperand c i = some g ↔ ∃ w, Cell.operand16 c i = some w ∧ w.toInt = g ∧ -4000 ≤ g ∧ g ≤ 2000) ∧
     (Cell.gainOperand c i = none ↔ ∀ w, Cell.operand16 c i = some w → w.toInt < -4000 ∨ 2000 < w.toInt) ∧
     (∀ x : Option ProfileNo, Cell.expectedProfile c = some x ↔ ∃ b, Cell.operand c 0 = some b ∧
       (match x with | none => b = 0xFF | some q => b.toNat = q)) ∧
     (Cell.expectedProfile c = none ↔ ∀ b, Cell.operand c 0 = some b → b ≠ 0xFF ∧ 7 < b.toNat)) ∧
  ((∀ (s : State) (c : Cell), s.holds 0x0B c →
     (Cell.programme c = none → exec .profileExchange s = .next (s.answer c .badIndex [])) ∧
     (∀ p, Cell.programme c = some p →
       ((Cell.expectedProfile c = none ∨ Cell.profileOperand c 1 = none) →
         exec .profileExchange s = .next (s.answer c .badValue [])) ∧
       (∀ expected new, Cell.expectedProfile c = some expected → Cell.profileOperand c 1 = some new →
         exec .profileExchange s = .next (State.cancelAutomatic { s with
           cells := { s.cells with inHand := none }
           arbiter := { s.arbiter with directives := s.arbiter.directives ++
             [{ op := .exchange expected new, prog := p, reply := Cell.reply c, abort := false }] } })))) ∧
   (∀ (s : State) (c : Cell), s.holds 0x0C c →
     (Cell.programme c = none → exec .gainForce s = .next (s.answer c .badIndex [])) ∧
     (∀ p, Cell.programme c = some p →
       ((Cell.gainOperand c 0 = none ∨ Cell.operand c 2 = none) →
         exec .gainForce s = .next (s.answer c .badValue [])) ∧
       (∀ gain snap, Cell.gainOperand c 0 = some gain → Cell.operand c 2 = some snap →
         exec .gainForce s = .next (State.cancelAutomatic { s with
           cells := { s.cells with inHand := none }
           arbiter := { s.arbiter with directives := s.arbiter.directives ++
             [{ op := .force gain (snap.getLsbD 0), prog := p, reply := Cell.reply c, abort := false }] } })))) ∧
   (∀ (s : State) (c : Cell), s.holds 0x0D c →
     (Cell.programme c = none → exec .gainRelease s = .next (s.answer c .badIndex [])) ∧
     (∀ p, Cell.programme c = some p →
       exec .gainRelease s = .next (State.cancelAutomatic { s with
         cells := { s.cells with inHand := none }
         arbiter := { s.arbiter with directives := s.arbiter.directives ++
           [{ op := .release, prog := p, reply := Cell.reply c, abort := false }] } })))) ∧
  (∀ (s : State) (c : Cell), s.holds 0x0E c →
     (Cell.programme c = none → exec .probe s = .next (s.answer c .badIndex [])) ∧
     (∀ p, Cell.programme c = some p →
       (Cell.profileOperand c 0 = none → exec .probe s = .next (s.answer c .badValue [])) ∧
       (∀ q, Cell.profileOperand c 0 = some q →
         (s.arbiter.probe ≠ none → exec .probe s = .next (s.answer c .busy [])) ∧
         (s.arbiter.probe = none → exec .probe s = .next { s with
           cells := { s.cells with inHand := none }
           arbiter := { s.arbiter with
             probe := some { prog := p, profile := q, reply := Cell.reply c, abort := false } } }))))

/-- PARTICIPATE: an operand that is not 0, 1 or 2 is answered BAD_VALUE and neither flag changes; else each flag is turned off, on
or kept, a set whose flag goes from on to off is emptied, and both flags are answered. Nothing else changes. -/
def Obligations.ParticipateSetsTheFlags : Prop :=
  ∀ (s : State) (c : Cell), s.holds 0x11 c →
    (∀ a b, Cell.operand c 0 = some a → Cell.operand c 1 = some b →
      (2 < a.toNat ∨ 2 < b.toNat → exec .participate s = .next (s.answer c .badValue [])) ∧
      (∀ retune rescale : Bool, a.toNat ≤ 2 → b.toNat ≤ 2 →
        retune = (if a = 0 then false else if a = 1 then true else s.arbiter.retuneOn) →
        rescale = (if b = 0 then false else if b = 1 then true else s.arbiter.rescaleOn) →
        exec .participate s = .next (State.answer { s with arbiter := { s.arbiter with
          retuneOn := retune
          rescaleOn := rescale
          retune := if s.arbiter.retuneOn = true ∧ retune = false then 0 else s.arbiter.retune
          rescale := if s.arbiter.rescaleOn = true ∧ rescale = false then 0 else s.arbiter.rescale } } c .done
          [mark retune 0 ||| mark rescale 1]))) ∧
    ((Cell.operand c 0 = none ∨ Cell.operand c 1 = none) → exec .participate s = .next (s.answer c .badValue []))

/-- A cancel withdraws a RETUNE or RESCALE in flight with none of its effects and repeats its programme; any other operation stays.
A cue entry is eligible where it is DUE, the first DUE entry of its programme, and the staged list holds fewer than 2; an event
cancels exactly where an entry that was not eligible before it is eligible after it. -/
def Obligations.CancelAndEligibility : Prop :=
  ((∀ (s : State) (f : InFlight), s.engine = some f → f.op = .retune → s.cancelAutomatic = { s with
     engine := none
     lawMark := none
     arbiter := { s.arbiter with retune :=
       if s.arbiter.retuneOn = true ∧ s.progs[f.prog].state = .tracking then ProgSet.insert s.arbiter.retune f.prog
       else s.arbiter.retune } }) ∧
   (∀ (s : State) (f : InFlight), s.engine = some f → f.op = .rescale → s.cancelAutomatic = { s with
     engine := none
     lawMark := none
     arbiter := { s.arbiter with rescale :=
       if s.arbiter.rescaleOn = true ∧ s.progs[f.prog].state = .tracking then ProgSet.insert s.arbiter.rescale f.prog
       else s.arbiter.rescale } }) ∧
   (∀ (s : State) (f : InFlight), s.engine = some f → f.op ≠ .retune → f.op ≠ .rescale → s.cancelAutomatic = s) ∧
   (∀ s : State, s.engine = none → s.cancelAutomatic = s)) ∧
  (∀ (s : State) (before behind : List Cue) (e : Cue), s.cues = before ++ e :: behind → s.CuesKept →
     (s.eligible e = true ↔
       e.due = true ∧ (∀ x ∈ before, x.prog = e.prog → x.due = false) ∧ s.gains[e.prog].staged.length < 2)) ∧
  (∀ old new : State,
     ((∃ e, new.eligible e = true ∧ old.eligible e = false) → offerCues old new = new.cancelAutomatic) ∧
     ((∀ e, new.eligible e = true → old.eligible e = true) → offerCues old new = new))

/-! ### Grant and completion -/

/-- GRANT: with an operation in flight or nothing to grant nothing changes. Abort-marked directives at the head are answered ABORTED
and the first that is not marked goes into flight; with no directive queued and no cue eligible the PROBE does. A queue whose
directives are all marked, and a PROBE that is marked, are answered ABORTED and the grant goes on without them. That one GRANT answers
every marked entry it meets and goes on in the same command is the model's choice: assumption 18. -/
def Obligations.GrantTakesDirectivesAndProbes : Prop :=
  ((∀ s : State, s.engine ≠ none → exec .grant s = .next s) ∧
   (∀ (s : State) (marked rest : List Directive) (d : Directive), s.engine = none →
     s.arbiter.directives = marked ++ d :: rest → (∀ m ∈ marked, m.abort = true) → d.abort = false →
     exec .grant s = .next { s with
       arbiter := { s.arbiter with directives := rest }
       cells := { s.cells with responses := s.cells.responses ++
         (marked.map fun m => m.reply.made .aborted m.reply.count []) }
       lawMark := none
       engine := some
         { op := .directive d.op d.reply, prog := d.prog, discard := false, boundaries := 0
           snap := { state := s.progs[d.prog].state, generation := s.progs[d.prog].generation,
                     profile := s.progs[d.prog].profile, target := s.gains[d.prog].target,
                     staged := s.gains[d.prog].staged.length, computation := none, bank := none } } })) ∧
  (∀ (s : State) (e : ProbeEntry) (v : Option Int × Option Int × Option Int) (bank : TableNo × Bank),
     s.engine = none → s.arbiter.directives = [] → (∀ x ∈ s.cues, s.eligible x = false) → s.arbiter.probe = some e →
     v = s.measuredValues e.prog (s.profiles[e.profile]).relativeOffset →
     bank = (s.profiles[e.profile].lawTable, s.laws[s.profiles[e.profile].lawTable].active) →
     (e.abort = false → exec .grant s = .next { s with
       arbiter := { s.arbiter with probe := none }
       lawMark := some bank
       engine := some
         { op := .probe e.profile e.reply, prog := e.prog, discard := false, boundaries := 0
           snap := { state := s.progs[e.prog].state, generation := s.progs[e.prog].generation,
                     profile := s.progs[e.prog].profile, target := s.gains[e.prog].target,
                     staged := s.gains[e.prog].staged.length, bank := some bank
                     computation := some
                       { profile := s.profiles[e.profile], short := v.1, integrated := v.2.1, blend := v.2.2
                         pressure := s.gains[e.prog].pressure } } } }) ∧
     (e.abort = true → s.arbiter.rescale = 0 → s.arbiter.retune = 0 → exec .grant s = .next { s with
       arbiter := { s.arbiter with probe := none }
       cells := { s.cells with responses := s.cells.responses ++ [e.reply.made .aborted e.reply.count []] } }) ∧
     (e.abort = true → exec .grant s = exec .grant { s with
       arbiter := { s.arbiter with probe := none }
       cells := { s.cells with responses := s.cells.responses ++ [e.reply.made .aborted e.reply.count []] } })) ∧
  (∀ s : State, s.engine = none → (∀ d ∈ s.arbiter.directives, d.abort = true) → exec .grant s = exec .grant { s with
     arbiter := { s.arbiter with directives := [] }
     cells := { s.cells with responses := s.cells.responses ++
       (s.arbiter.directives.map fun d => d.reply.made .aborted d.reply.count []) } }) ∧
  (∀ s : State, s.engine = none → s.arbiter.directives = [] → (∀ x ∈ s.cues, s.eligible x = false) → s.arbiter.probe = none →
     s.arbiter.rescale = 0 → s.arbiter.retune = 0 → exec .grant s = .next s)

/-- GRANT with no directive queued takes the first eligible cue: it leaves the Cue Queue, its snapshot holds the profile it carries
where it is a SWITCH or SEGMENT and the values formed under the active profile's offset, the active bank of the carried profile's
table is marked, and the last values are copied. -/
def Obligations.GrantTakesTheFirstEligibleCue : Prop :=
  ∀ (s : State) (before behind : List Cue) (e : Cue) (carried : Option ProfileNo) (v : Option Int × Option Int × Option Int)
      (bank : Option (TableNo × Bank)),
    s.engine = none → s.arbiter.directives = [] → s.CuesKept → s.cues = before ++ e :: behind →
    (∀ x ∈ before, s.eligible x = false) → s.eligible e = true →
    carried = (if e.kind = .segment ∨ e.kind = .switch then e.profile else none) →
    v = s.measuredValues e.prog (s.activeProfile e.prog).relativeOffset →
    bank = carried.map (fun q => (s.profiles[q].lawTable, s.laws[s.profiles[q].lawTable].active)) →
    exec .grant s = .next { s with
      cues := before ++ behind
      lawMark := bank
      engine := some
        { op := .cue e, prog := e.prog, discard := false, boundaries := 0
          snap := { state := s.progs[e.prog].state, generation := s.progs[e.prog].generation,
                    profile := s.progs[e.prog].profile, target := s.gains[e.prog].target,
                    staged := s.gains[e.prog].staged.length, bank := bank
                    computation := some
                      { profile := (match carried with | some q => s.profiles[q] | none => s.activeProfile e.prog)
                        short := v.1, integrated := v.2.1, blend := v.2.2, pressure := s.gains[e.prog].pressure } } }
      meters := s.meters.set e.prog { s.meters[e.prog] with lastShort := v.1, lastIntegrated := v.2.1 } }

/-- GRANT with nothing in a higher source takes the next programme in turn of the rescale set, and of the retune set where the
rescale set is empty: it leaves the set, the set's pointer takes its number, its snapshot is formed under the active profile,
whose table's active bank is marked, and the last values are copied. -/
def Obligations.GrantTakesTheNextInTurn : Prop :=
  ∀ (s : State) (p : Prog) (v : Option Int × Option Int × Option Int) (bank : TableNo × Bank) (snap : Snapshot),
    s.engine = none → s.arbiter.directives = [] → (∀ x ∈ s.cues, s.eligible x = false) → s.arbiter.probe = none →
    v = s.measuredValues p (s.activeProfile p).relativeOffset →
    bank = ((s.activeProfile p).lawTable, s.laws[(s.activeProfile p).lawTable].active) →
    snap = { state := s.progs[p].state, generation := s.progs[p].generation, profile := s.progs[p].profile,
             target := s.gains[p].target, staged := s.gains[p].staged.length, bank := some bank
             computation := some
               { profile := s.activeProfile p, short := v.1, integrated := v.2.1, blend := v.2.2
                 pressure := s.gains[p].pressure } } →
    (NextInTurn s.arbiter.rescale s.arbiter.rescalePointer p → exec .grant s = .next { s with
      arbiter := { s.arbiter with rescale := ProgSet.erase s.arbiter.rescale p, rescalePointer := some p }
      lawMark := some bank
      engine := some { op := .rescale, prog := p, snap := snap, discard := false, boundaries := 0 }
      meters := s.meters.set p { s.meters[p] with lastShort := v.1, lastIntegrated := v.2.1 } }) ∧
    (s.arbiter.rescale = 0 → NextInTurn s.arbiter.retune s.arbiter.retunePointer p → exec .grant s = .next { s with
      arbiter := { s.arbiter with retune := ProgSet.erase s.arbiter.retune p, retunePointer := some p }
      lawMark := some bank
      engine := some { op := .retune, prog := p, snap := snap, discard := false, boundaries := 0 }
      meters := s.meters.set p { s.meters[p] with lastShort := v.1, lastIntegrated := v.2.1 } })

/-- A completion with the discard mark set makes no effect: a directive or PROBE is answered ABORTED. A RETUNE or RESCALE is discarded
and re-entered where the generation differs, and discarded where its snapshot found staged entries. -/
def Obligations.DiscardedOperationsMakeNoEffect : Prop :=
  (∀ (s : State) (f : InFlight), s.engine = some f → f.discard = true →
     (f.op = .retune → exec .retuneCompletion s = .next { s with engine := none, lawMark := none }) ∧
     (f.op = .rescale → exec .rescaleCompletion s = .next { s with engine := none, lawMark := none }) ∧
     (∀ e, f.op = .cue e → exec .cueCompletion s = .next { s with engine := none, lawMark := none }) ∧
     (∀ a b r, f.op = .directive (.exchange a b) r → exec .profileExchangeCompletion s = .next { s with
       engine := none, lawMark := none
       cells := { s.cells with responses := s.cells.responses ++ [r.made .aborted r.count []] } }) ∧
     (∀ g b r, f.op = .directive (.force g b) r → exec .gainForceCompletion s = .next { s with
       engine := none, lawMark := none
       cells := { s.cells with responses := s.cells.responses ++ [r.made .aborted r.count []] } }) ∧
     (∀ r, f.op = .directive .release r → exec .gainReleaseCompletion s = .next { s with
       engine := none, lawMark := none
       cells := { s.cells with responses := s.cells.responses ++ [r.made .aborted r.count []] } }) ∧
     (∀ q r, f.op = .probe q r → exec .probeCompletion s = .next { s with
       engine := none, lawMark := none
       cells := { s.cells with responses := s.cells.responses ++ [r.made .aborted r.count []] } })) ∧
  (∀ (s : State) (f : InFlight), s.inFlight f →
     (s.progs[f.prog].generation ≠ f.snap.generation →
       (f.op = .retune → exec .retuneCompletion s = .next { s with
         engine := none, lawMark := none
         arbiter := { s.arbiter with retune :=
           if s.arbiter.retuneOn = true ∧ s.progs[f.prog].state = .tracking then ProgSet.insert s.arbiter.retune f.prog
           else s.arbiter.retune } }) ∧
       (f.op = .rescale → exec .rescaleCompletion s = .next { s with
         engine := none, lawMark := none
         arbiter := { s.arbiter with rescale :=
           if s.arbiter.rescaleOn = true ∧ s.progs[f.prog].state = .tracking then ProgSet.insert s.arbiter.rescale f.prog
           else s.arbiter.rescale } })) ∧
     (s.progs[f.prog].generation = f.snap.generation → f.snap.staged ≠ 0 →
       (f.op = .retune → exec .retuneCompletion s = .next { s with engine := none, lawMark := none }) ∧
       (f.op = .rescale → exec .rescaleCompletion s = .next { s with engine := none, lawMark := none })))

/-- RETUNE and RESCALE that pass their checks: the measured value by the basis, the deviation, the law's gain, the tolerance test on
it, the clamp to the stored range, the pressure test, and the clamped gain as the new target. Nothing else changes. -/
def Obligations.RetunesAndRescalesSetTheTarget : Prop :=
  ∀ (s : State) (f : InFlight) (k : Computation) (table : TableNo) (letter : Bank) (value : Option Int),
    s.inFlight f → f.op = .retune ∨ f.op = .rescale → s.progs[f.prog].generation = f.snap.generation → f.snap.staged = 0 →
    f.snap.computation = some k → f.snap.bank = some (table, letter) → s.progs[f.prog].state ≠ .unused →
    (s.activeProfile f.prog).gainMin ≤ (s.activeProfile f.prog).gainMax →
    value = (match k.profile.basis with | .short => k.short | .segment => k.integrated | .blend => k.blend) →
    ∃ t, (if f.op = .retune then exec .retuneCompletion s else exec .rescaleCompletion s) = .next t ∧
      (value = none → t = { s with engine := none, lawMark := none }) ∧
      (∀ v proposed clamped, value = some v →
        proposed = (match letter with | .a => s.laws[table].bankA | .b => s.laws[table].bankB).gainAt (v - k.profile.target) →
        clamped = clampGain (s.activeProfile f.prog).gainMin (s.activeProfile f.prog).gainMax proposed →
        (((proposed - f.snap.target).natAbs ≤ k.profile.tolerance ∨ (k.pressure = true ∧ f.snap.target < clamped)) →
          t = { s with engine := none, lawMark := none }) ∧
        (k.profile.tolerance < (proposed - f.snap.target).natAbs → (k.pressure = true → clamped ≤ f.snap.target) →
          t = { s with
            engine := none, lawMark := none
            gains := s.gains.set f.prog { s.gains[f.prog] with target := clamped } }))

/-- A cue makes at completion the parts that R129 gives for its kind and the programme's state, and is skipped where it says so. -/
def Obligations.CuesActByKindAndState : Prop :=
  (∀ (s : State) (f : InFlight) (e : Cue) (p : Prog) (idle : State), s.inFlight f → f.op = .cue e → e.prog = p →
     idle = { s with engine := none, lawMark := none } →
     (e.kind = .hold →
       (s.progs[p].state = .dormant ∨ s.progs[p].state = .tracking ∨ s.progs[p].state = .held →
         exec .cueCompletion s = .next ((idle.moveTo p .held).stage e none false)) ∧
       (s.progs[p].state = .overridden → exec .cueCompletion s = .next (idle.skipCue p))) ∧
     (e.kind = .release →
       (s.progs[p].state = .held → s.progs[p].presence = .present →
         exec .cueCompletion s = .next ((idle.moveTo p .tracking).requestRetune p)) ∧
       (s.progs[p].state = .held → s.progs[p].presence = .silent → exec .cueCompletion s = .next (idle.moveTo p .dormant)) ∧
       (s.progs[p].state = .dormant ∨ s.progs[p].state = .tracking ∨ s.progs[p].state = .overridden →
         exec .cueCompletion s = .next (idle.skipCue p))) ∧
     (e.kind = .preset →
       (s.progs[p].state = .dormant ∨ s.progs[p].state = .tracking ∨ s.progs[p].state = .held →
         exec .cueCompletion s = .next (idle.stage e e.gain e.snap)) ∧
       (s.progs[p].state = .overridden → exec .cueCompletion s = .next (idle.skipCue p)))) ∧
  (∀ (s : State) (f : InFlight) (e : Cue) (p : Prog) (moved : State) (computed : Option Int), s.inFlight f → f.op = .cue e →
     e.prog = p →
     moved = (match e.profile with
       | some q => State.setProfile { s with engine := none, lawMark := none } p q
       | none => { s with engine := none, lawMark := none }) →
     computed = (match e.profile with | some q => s.proposedGain f.snap s.profiles[q] | none => none) →
     (e.kind = .segment →
       (s.progs[p].state = .dormant ∨ s.progs[p].state = .held → exec .cueCompletion s = .next
         (if e.gain ≠ none ∨ e.snap = true then moved.stage e e.gain e.snap else moved)) ∧
       (s.progs[p].state = .tracking → exec .cueCompletion s = .next
         (if e.gain ≠ none ∨ computed ≠ none ∨ e.snap = true then moved.stage e (e.gain.or computed) e.snap else moved)) ∧
       (s.progs[p].state = .overridden → exec .cueCompletion s = .next
         (if e.gain ≠ none ∨ e.snap = true then moved.skipCue p else moved))) ∧
     (e.kind = .switch →
       (s.progs[p].state = .dormant ∨ s.progs[p].state = .held → exec .cueCompletion s = .next moved) ∧
       (s.progs[p].state = .tracking → exec .cueCompletion s = .next
         (match computed with | some g => moved.stage e (some g) false | none => moved)) ∧
       (s.progs[p].state = .overridden → exec .cueCompletion s = .next (moved.skipCue p))))

/-- A gain is clamped to the nearest value of a range. The parts of a cue, each on a programme that is not UNUSED: the profile part
sets the profile, increments the generation and clamps the target; the state part moves the programme, with one increment where the state changes, and out of the arbiter's sets
where it leaves TRACKING; a request for the retune set is taken where the flag is on and the programme TRACKING; the gain part
stages an entry for due block + 128 in order of boundary; a skip is counted and claimed. -/
def Obligations.CuePartsActOnTheProgramme : Prop :=
  (∀ low high g : Int, low ≤ high → low ≤ clampGain low high g ∧ clampGain low high g ≤ high ∧
    ∀ x, low ≤ x → x ≤ high → |clampGain low high g - g| ≤ |x - g|) ∧
  ∀ (s : State) (p : Prog), s.progs[p].state ≠ .unused →
    (∀ q : ProfileNo, s.setProfile p q = { s with
      progs := s.progs.set p { s.progs[p] with profile := q, generation := s.progs[p].generation + 1 }
      gains := s.gains.set p { s.gains[p] with
          target := clampGain s.profiles[q].gainMin s.profiles[q].gainMax s.gains[p].target } }) ∧
    (∀ st : ProgState, s.moveTo p st = { s with
      progs := s.progs.set p { s.progs[p] with
        state := st
        generation := if s.progs[p].state = st then s.progs[p].generation else s.progs[p].generation + 1 }
      arbiter := if s.progs[p].state = .tracking ∧ st ≠ .tracking then { s.arbiter with
          retune := ProgSet.erase s.arbiter.retune p, rescale := ProgSet.erase s.arbiter.rescale p }
        else s.arbiter }) ∧
    s.requestRetune p = { s with arbiter := { s.arbiter with retune :=
      if s.arbiter.retuneOn = true ∧ s.progs[p].state = .tracking then ProgSet.insert s.arbiter.retune p
      else s.arbiter.retune } } ∧
    (∀ (e : Cue) (gain : Option Int) (snap : Bool), e.prog = p →
      s.stage e gain snap = { s with gains := s.gains.set p { s.gains[p] with
        staged := (s.gains[p].staged.takeWhile fun x => atOrBefore x.boundary (e.block + 128)) ++
          { boundary := e.block + 128, kind := e.kind, gain := gain, snap := snap, late := e.late } ::
            (s.gains[p].staged.dropWhile fun x => atOrBefore x.boundary (e.block + 128)) } }) ∧
    s.skipCue p = State.claim { s with
      progs := s.progs.set p { s.progs[p] with skipped := min 255 (s.progs[p].skipped + 1) } } .cueSkipped

/-- PROFILE_EXCHANGE completes against the record as it stands: ABORTED with the discard mark set, BAD_STATE on an UNUSED programme,
MISMATCH with the active profile where another was expected, and otherwise the new profile, one increment of the generation, the
target clamped to its stored range, a request for the retune set where the programme is TRACKING, and DONE with the old and the new
profile. -/
def Obligations.ProfileExchangeCompletesAgainstTheRecord : Prop :=
  (∀ (s : State) (f : InFlight) (expected : Option ProfileNo) (new : ProfileNo) (r : Reply), s.engine = some f →
     f.discard = true → f.op = .directive (.exchange expected new) r →
     exec .profileExchangeCompletion s = .next (State.fill { s with engine := none, lawMark := none } r .aborted [])) ∧
  ∀ (s : State) (f : InFlight) (p : Prog) (expected : Option ProfileNo) (new old : ProfileNo) (r : Reply) (idle : State),
    s.inFlight f → f.op = .directive (.exchange expected new) r → f.prog = p → old = s.progs[p].profile →
    idle = { s with engine := none, lawMark := none } →
    (s.progs[p].state = .unused → exec .profileExchangeCompletion s = .next (idle.fill r .badState [])) ∧
    (s.progs[p].state ≠ .unused → (∃ q, expected = some q ∧ q ≠ old) →
      exec .profileExchangeCompletion s = .next (idle.fill r .mismatch [BitVec.ofNat 8 old])) ∧
    (s.progs[p].state ≠ .unused → (expected = none ∨ expected = some old) →
      exec .profileExchangeCompletion s = .next (State.fill { idle with
        progs := s.progs.set p { s.progs[p] with profile := new, generation := s.progs[p].generation + 1 }
        gains := s.gains.set p { s.gains[p] with
          target := clampGain s.profiles[new].gainMin s.profiles[new].gainMax s.gains[p].target }
        arbiter := { s.arbiter with retune :=
          if s.arbiter.retuneOn = true ∧ s.progs[p].state = .tracking then ProgSet.insert s.arbiter.retune p
          else s.arbiter.retune } } r .done [BitVec.ofNat 8 old, BitVec.ofNat 8 new]))

/-- GAIN_FORCE makes its programme OVERRIDDEN at the forced target, out of both sets and with its staged list emptied; GAIN_RELEASE
returns an OVERRIDDEN programme to TRACKING or DORMANT by its presence. Each answers as the record stands, and ABORTED with the
discard mark set. -/
def Obligations.GainForceAndReleaseComplete : Prop :=
  (∀ (s : State) (f : InFlight) (r : Reply), s.engine = some f → f.discard = true →
     (∀ gain snap, f.op = .directive (.force gain snap) r → exec .gainForceCompletion s = .next
       (State.fill { s with engine := none, lawMark := none } r .aborted [])) ∧
     (f.op = .directive .release r → exec .gainReleaseCompletion s = .next
       (State.fill { s with engine := none, lawMark := none } r .aborted []))) ∧
  (∀ (s : State) (f : InFlight) (p : Prog) (gain target : Int) (snap : Bool) (r : Reply) (idle : State),
     s.inFlight f → f.op = .directive (.force gain snap) r → f.prog = p →
     target = clampGain (s.activeProfile p).gainMin (s.activeProfile p).gainMax gain →
     idle = { s with engine := none, lawMark := none } →
     (s.progs[p].state = .unused → exec .gainForceCompletion s = .next (idle.fill r .badState [])) ∧
     (s.progs[p].state ≠ .unused → exec .gainForceCompletion s = .next (State.fill { idle with
       progs := s.progs.set p { s.progs[p] with
         state := .overridden
         generation := if s.progs[p].state = .overridden then s.progs[p].generation else s.progs[p].generation + 1 }
       gains := s.gains.set p { s.gains[p] with target := target, staged := [], snap := s.gains[p].snap || snap }
       arbiter := { s.arbiter with
         retune := ProgSet.erase s.arbiter.retune p, rescale := ProgSet.erase s.arbiter.rescale p } } r .done
       (bytes16 (BitVec.ofInt 16 target) ++ [s.progs[p].state.code, BitVec.ofNat 8 s.gains[p].staged.length])))) ∧
  (∀ (s : State) (f : InFlight) (p : Prog) (r : Reply) (idle : State),
     s.inFlight f → f.op = .directive .release r → f.prog = p → idle = { s with engine := none, lawMark := none } →
     (s.progs[p].state ≠ .overridden → exec .gainReleaseCompletion s = .next (idle.fill r .badState [])) ∧
     (s.progs[p].state = .overridden → s.progs[p].presence = .silent → exec .gainReleaseCompletion s = .next (State.fill
       { idle with progs := s.progs.set p { s.progs[p] with
           state := .dormant, generation := s.progs[p].generation + 1 } } r .done [1])) ∧
     (s.progs[p].state = .overridden → s.progs[p].presence = .present → exec .gainReleaseCompletion s = .next (State.fill
       { idle with
         progs := s.progs.set p { s.progs[p] with state := .tracking, generation := s.progs[p].generation + 1 }
         arbiter := { s.arbiter with retune :=
           if s.arbiter.retuneOn = true then ProgSet.insert s.arbiter.retune p else s.arbiter.retune } } r .done [2])))

/-- PROBE completes: BAD_STATE on an UNUSED programme, and otherwise DONE with the three values, the state, profile, target and
pressure of its snapshot, and what steps 1 to 6 of R102 propose, or the no-data mark. It changes no other state. -/
def Obligations.ProbeChangesNoState : Prop :=
  ∀ (s : State) (f : InFlight) (p : Prog) (q : ProfileNo) (r : Reply) (idle : State) (k : Computation) (table : TableNo)
      (letter : Bank) (value : Option Int),
    s.inFlight f → f.op = .probe q r → f.prog = p → idle = { s with engine := none, lawMark := none } →
    f.snap.computation = some k → f.snap.bank = some (table, letter) →
    value = (match k.profile.basis with | .short => k.short | .segment => k.integrated | .blend => k.blend) →
    (s.progs[p].state = .unused → exec .probeCompletion s = .next (idle.fill r .badState [])) ∧
    (s.progs[p].state ≠ .unused → value = none → exec .probeCompletion s = .next (idle.fill r .done
      (bytesOptInt k.short ++ bytesOptInt k.integrated ++ bytesOptInt k.blend ++
        [f.snap.state.code, BitVec.ofNat 8 f.snap.profile] ++ bytesInt f.snap.target ++ [mark k.pressure 0 ||| 0b10] ++
        [0x80, 0, 0x80, 0, 0x80, 0]))) ∧
    (∀ v law clamped, s.progs[p].state ≠ .unused → value = some v →
      law = (match letter with | .a => s.laws[table].bankA | .b => s.laws[table].bankB).gainAt (v - k.profile.target) →
      clamped = clampGain s.profiles[q].gainMin s.profiles[q].gainMax law →
      exec .probeCompletion s = .next (idle.fill r .done
        (bytesOptInt k.short ++ bytesOptInt k.integrated ++ bytesOptInt k.blend ++
          [f.snap.state.code, BitVec.ofNat 8 f.snap.profile] ++ bytesInt f.snap.target ++
          [mark k.pressure 0 ||| mark (decide (k.profile.tolerance < (law - f.snap.target).natAbs) &&
            !(k.pressure && decide (f.snap.target < clamped))) 2] ++
          bytesInt (v - k.profile.target) ++ bytesInt law ++ bytesInt clamped)))

/-! ### The link -/

/-- SEARCH examines each frame as a possible frame 0 and enters CONFIRM at a valid header, with the delay line cleared and this
frame written (assumption 12). CONFIRM counts frames; the second header either confirms the lock or returns to SEARCH. -/
def Obligations.SearchAndConfirmFindTheLink : Prop :=
  (∀ (s : State) (f : Frame), s.rx.lock = .search →
    ((∀ w0, s.rx.possible = some w0 → f.service.toNat % 16 ≠ 0) → exec (.inboundFrame f) s = .next { s with
      rx := { s.rx with
        periods := 0, timeouts := 0
        possible := if f.service.extractLsb' 16 16 = 0x6B2D then some f.service else none } }) ∧
    (∀ w0, s.rx.possible = some w0 → f.service.toNat % 16 = 0 → exec (.inboundFrame f) s = .next { s with
      rx := { lock := .confirm, possible := none, words := [w0, f.service], header := .valid, time := f.service
              expected := none, slip := none, settle := none, errorRun := 0, periods := 0, timeouts := 0
              hop := w0.extractLsb' 0 8 }
      delay := List.replicate 127 silence ++ [f.samples]
      filterInput := [f.samples] })) ∧
  (∀ (s : State) (f : Frame), s.rx.lock = .confirm → s.framesInTime →
    (s.rx.words.length = 16 → exec (.inboundFrame f) s = .next { s with
      rx := { s.rx with periods := 0, timeouts := 0, words := [f.service] }
      delay := s.delay.drop 1 ++ [f.samples]
      filterInput := f.samples :: s.filterInput }) ∧
    (s.rx.words.length ≠ 1 → s.rx.words.length ≠ 16 → exec (.inboundFrame f) s = .next { s with
      rx := { s.rx with periods := 0, timeouts := 0, words := s.rx.words ++ [f.service] }
      delay := s.delay.drop 1 ++ [f.samples]
      filterInput := f.samples :: s.filterInput }) ∧
    (∀ w0, s.rx.words = [w0] →
      (w0.extractLsb' 16 16 = 0x6B2D → f.service.toNat % 16 = 0 → f.service = s.rx.time + 16 →
        exec (.inboundFrame f) s = .next { s with
          rx := { s.rx with
            lock := .settling, words := [w0, f.service], header := .valid, time := f.service
            expected := some (f.service + 16), slip := none, settle := some 0, errorRun := 0, periods := 0, timeouts := 0
            hop := w0.extractLsb' 0 8 }
          delay := s.delay.drop 1 ++ [f.samples]
          filterInput := f.samples :: s.filterInput }) ∧
      (¬(w0.extractLsb' 16 16 = 0x6B2D ∧ f.service.toNat % 16 = 0 ∧ f.service = s.rx.time + 16) →
        exec (.inboundFrame f) s = .next { s with
          rx := { Receiver.reset with
            hop := if w0.extractLsb' 16 16 = 0x6B2D ∧ f.service.toNat % 16 = 0 then w0.extractLsb' 0 8 else s.rx.hop } })))

/-- Each superframe in SETTLING and RUNNING takes the expected link time as its own and the expected time goes on by 16; the
settle count is incremented in SETTLING, and RUNNING is entered where it has reached the settle length on a multiple of 64. The
outbound superframe begins with it, its header by the lock state as it then stands. Its cell is the one the part offers at that
moment, `seen`, which at a block boundary stands between the part before the boundary's claims and the part after them; the notice
state moves at the claims before, at the start and at the claims after: assumption 4. The Cell Handler stays as it is at frame 0. What had to happen before a block boundary
happens first, the windows before the operation: assumptions 11 and 29. When the sixteenth frame of the outbound superframe has been
sent, the source of its cell takes the sent report. -/
def Obligations.SuperframesTakeTheExpectedTime : Prop :=
  (∀ (s : State) (f : Frame) (e : LinkTime) (enters : Bool), s.followsTheLink → s.rx.words.length = 16 →
    s.rx.expected = some e →
    enters = decide (s.rx.lock = .settling ∧ e.toNat % 64 = 0 ∧
      ∃ n, s.rx.settle = some n ∧ 16 * 4 ^ s.straps.settle.toNat ≤ min 1024 (n + 1)) →
    ∃ t, exec (.inboundFrame f) s = .next t ∧ t.currentTime = e ∧
      t.rx = { s.rx with
        periods := 0, timeouts := 0, words := [f.service], header := .unchecked, time := e, expected := some (e + 16)
        lock := if enters then .running else s.rx.lock
        settle := if enters then none else s.rx.settle.map fun n => min 1024 (n + 1) } ∧
      t.tx.time = e ∧ t.tx.sent = 1 ∧ t.tx.absent = false ∧ (t.tx.bypass = true ↔ t.rx.lock = .settling) ∧
      t.tx.hop = (if t.rx.lock = .running then 0x40 + s.straps.address.setWidth 8 else s.rx.hop)) ∧
  (∀ (s u : State) (f : Frame) (e : LinkTime) (trigger : NoticeState → NoticeState), s.followsTheLink →
    s.rx.words.length = 16 → s.rx.expected = some e →
    (∀ n, trigger n = match n with | .none | .pending => .pending | .sending | .sendingAgain => .sendingAgain) →
    u = (if e.toNat % 64 = 0 then s.settleBeforeBoundary else s) →
    ∃ t seen : State, exec (.inboundFrame f) s = .next t ∧ seen.OffersCell t.tx.cell t.tx.source ∧
      seen = { u with gains := seen.gains, notice := seen.notice } ∧ t.cells = u.cells ∧
      (∀ p : Prog, seen.gains[p].pressure = u.gains[p].pressure ∨ seen.gains[p].pressure = t.gains[p].pressure) ∧
      (∀ k : Condition, (u.notice.flags.getLsbD k.bit = true → seen.notice.flags.getLsbD k.bit = true) ∧
        (seen.notice.flags.getLsbD k.bit = true → t.notice.flags.getLsbD k.bit = true)) ∧
      (seen.notice.flags.getLsbD 7 = true ↔ u.notice.flags.getLsbD 7 = true ∨
        ∃ p : Prog, u.gains[p].pressure = false ∧ seen.gains[p].pressure = true) ∧
      (e.toNat % 64 ≠ 0 → seen = u ∧ t.notice.flags = u.notice.flags) ∧
      ∃ before after : Bool,
        (before = true ↔ u.notice.Triggered seen.notice.flags) ∧ (after = true ↔ seen.notice.Triggered t.notice.flags) ∧
        seen.notice = { u.notice with
          flags := seen.notice.flags, state := if before then trigger u.notice.state else u.notice.state } ∧
        t.notice = { u.notice with
          flags := t.notice.flags
          state := if seen.notice.state = .none then (if after then .pending else .none)
            else (if after then .sendingAgain else .sending) }) ∧
  (∀ (s : State) (f : Frame) (trigger report : NoticeState → NoticeState), s.followsTheLink → s.rx.words.length ≠ 16 →
    s.tx.sent = 15 →
    (∀ n, trigger n = match n with | .none | .pending => .pending | .sending | .sendingAgain => .sendingAgain) →
    (∀ n, report n = match n with | .none | .sending => .none | .pending | .sendingAgain => .pending) →
    ∃ t, exec (.inboundFrame f) s = .next t ∧ (t.rx.lock = .search ∨
      t.tx = { s.tx with sent := 16 } ∧
      t.cells.responses = (if s.tx.source = .response then s.cells.responses.drop 1 else s.cells.responses) ∧
      (s.rx.words.length ≠ 15 ∨ s.rx.header ≠ .valid →
        t.cells.forward = if s.tx.source = .forward then s.cells.forward.drop 1 else s.cells.forward) ∧
      ∃ triggered : Bool, (triggered = true ↔ s.notice.Triggered t.notice.flags) ∧
        t.notice = { s.notice with
          flags := t.notice.flags
          state := if s.tx.source = .notice then report (if triggered then trigger s.notice.state else s.notice.state)
            else if triggered then trigger s.notice.state else s.notice.state }))

/-- The header check of SETTLING and RUNNING: a valid header clears the error run and drops, adopts or replaces the slip candidate;
a header error is counted, drops the candidate, and ends the lock at a run of 2. A superframe taken as a header error already is
not checked again. TIME_SLIP is claimed where a slip is adopted and LINK_LOST where the lock is lost, and nothing else is; beside the
count, the Cell Handler takes the sent report that is due and nothing else. That the frame whose header ends the lock is not written and no outbound frame is sent for it is the model's
choice: assumptions 12 and 27. -/
def Obligations.HeadersAreCheckedAtFrameOne : Prop :=
  ∀ (s : State) (f : Frame) (w0 : ServiceWord) (valid adopted lost : Bool) (heard : Receiver), s.followsTheLink →
    s.rx.words = [w0] →
    valid = decide (w0.extractLsb' 16 16 = 0x6B2D ∧ f.service.toNat % 16 = 0) →
    heard = { s.rx with periods := 0, timeouts := 0, words := [w0, f.service] } →
    adopted = decide (s.rx.header ≠ .error ∧ valid = true ∧ f.service ≠ s.rx.time ∧
      s.rx.slip.map (fun x => x + 16) = some f.service) →
    lost = decide (s.rx.header ≠ .error ∧ valid = false ∧ 1 ≤ s.rx.errorRun) →
    ∃ t, exec (.inboundFrame f) s = .next t ∧
      (t.rx.lock = .search ↔ lost = true) ∧
      (∀ k : Condition, t.notice.flags.getLsbD k.bit = true ↔ s.notice.flags.getLsbD k.bit = true ∨
        (k = .timeSlip ∧ adopted = true) ∨ (k = .linkLost ∧ lost = true)) ∧
      (lost = true → t.notice = (s.claim .linkLost).notice) ∧
      (lost = false → s.tx.sent ≠ 15 → t.notice = if adopted then (s.claim .timeSlip).notice else s.notice) ∧
      t.cells = { s.cells with
        headerErrors := t.cells.headerErrors
        forward := if lost = false ∧ s.tx.sent = 15 ∧ s.tx.source = .forward then s.cells.forward.drop 1 else s.cells.forward
        responses := if lost = false ∧ s.tx.sent = 15 ∧ s.tx.source = .response then s.cells.responses.drop 1
          else s.cells.responses } ∧
      (s.rx.header = .error → t.rx = heard ∧ t.cells.headerErrors = s.cells.headerErrors) ∧
      (s.rx.header ≠ .error → valid = true → t.cells.headerErrors = s.cells.headerErrors ∧
        (f.service = s.rx.time →
          t.rx = { heard with errorRun := 0, header := .valid, hop := w0.extractLsb' 0 8, slip := none }) ∧
        (∀ x, f.service ≠ s.rx.time → s.rx.slip = some x → f.service = x + 16 →
          t.rx = { heard with
            errorRun := 0, header := .valid, hop := w0.extractLsb' 0 8, slip := none
            expected := some (f.service + 16) } ∧ t.notice.flags.getLsbD 2 = true) ∧
        (f.service ≠ s.rx.time → (∀ x, s.rx.slip = some x → f.service ≠ x + 16) →
          t.rx = { heard with
            errorRun := 0, header := .valid, hop := w0.extractLsb' 0 8, slip := some f.service })) ∧
      (s.rx.header ≠ .error → valid = false → t.cells.headerErrors = min 65535 (s.cells.headerErrors + 1) ∧
        (s.rx.errorRun = 0 → t.rx = { heard with errorRun := 1, header := .error, slip := none }) ∧
        (1 ≤ s.rx.errorRun → t.rx = { Receiver.reset with hop := s.rx.hop } ∧ t.notice.flags.getLsbD 0 = true ∧
          t.delay = s.delay ∧ t.sent = s.sent ∧ t.tx = s.tx ∧
          (s.rx.lock = .running → ∀ p : Prog, s.progs[p].state ≠ .unused →
            t.meters[p] = { s.meters[p] with sum := 0, frames := 0, window := none } ∧
            t.gains[p] = { s.gains[p] with reduction := 0, guardLength := 0, guardCount := 0 })))

/-- MISSING_FRAME_TIMEOUT: in SEARCH no count is kept and nothing changes; in CONFIRM the receiver returns to SEARCH; in SETTLING
and RUNNING, once 24 and then 16 more periods have passed, a header error is taken: counted, and at a run of 2 the lock is lost,
with the departure from RUNNING handed to the Meter and the Gain Stage. Given when the count has been reached it is that error alone;
and where the count has been reached and another frame or period comes first, the error is taken before it. How the periods pass, and
that an error that is due comes first, is the model's choice: assumption 10. -/
def Obligations.MissingFramesAreHeaderErrors : Prop :=
  (∀ s : State, s.rx.lock = .search → exec .missingFrameTimeout s = .next s) ∧
  (∀ s : State, s.rx.lock = .confirm → ∃ t, exec .missingFrameTimeout s = .next t ∧
    t.rx = { Receiver.reset with hop := s.rx.hop } ∧ t.cells.headerErrors = s.cells.headerErrors ∧
    t.notice.flags = s.notice.flags ∧ t.delay = s.delay ∧
    (24 + 16 * s.rx.timeouts ≤ s.rx.periods → t = { s with rx := { Receiver.reset with hop := s.rx.hop } })) ∧
  (∀ s : State, s.rx.lock = .settling ∨ s.rx.lock = .running →
    (s.rx.errorRun = 0 → exec .missingFrameTimeout s = .next { s with
      rx := { s.rx with
        periods := max s.rx.periods (24 + 16 * s.rx.timeouts), timeouts := s.rx.timeouts + 1, errorRun := 1, slip := none, header := .error }
      cells := { s.cells with headerErrors := min 65535 (s.cells.headerErrors + 1) } }) ∧
    (1 ≤ s.rx.errorRun → ∃ t, exec .missingFrameTimeout s = .next t ∧ t.rx = { Receiver.reset with hop := s.rx.hop } ∧
      t.cells.headerErrors = min 65535 (s.cells.headerErrors + 1) ∧ t.notice.flags.getLsbD 0 = true ∧ t.delay = s.delay ∧
      t.sent = s.sent ∧ t.tx = s.tx ∧
      (∀ p : Prog, (s.rx.lock = .running → s.progs[p].state ≠ .unused →
          t.meters[p] = { s.meters[p] with sum := 0, frames := 0, window := none } ∧
          t.gains[p] = { s.gains[p] with reduction := 0, guardLength := 0, guardCount := 0 }) ∧
        (s.rx.lock = .settling ∨ s.progs[p].state = .unused → t.meters[p] = s.meters[p] ∧ t.gains[p] = s.gains[p])))) ∧
  (∀ s u : State, s.rx.lock ≠ .search → 24 + 16 * s.rx.timeouts ≤ s.rx.periods → s.rx.periods < 40 + 16 * s.rx.timeouts →
    exec .missingFrameTimeout s = .next u →
    (∀ f : Frame, exec (.inboundFrame f) s = exec (.inboundFrame f) u) ∧
    exec .referenceFramePeriod s = exec .referenceFramePeriod u)

/-- REFERENCE_FRAME_PERIOD in SEARCH and CONFIRM sends one silent frame: the next of the outbound superframe in progress, whose cell
is reported sent after its last word, or the first of a new one on the local link time, ABSENT, with its cell chosen as notice,
forwarded cell, response or idle cell. In SETTLING and RUNNING it is counted alone. A period that comes when the count of missing
frames has been reached stands in MissingFramesAreHeaderErrors. -/
def Obligations.ReferencePeriodsSendSilence : Prop :=
  ∀ (s : State) (rx : Receiver),
    (s.rx.lock = .search ∧ rx = s.rx) ∨
      (s.rx.lock = .confirm ∧ s.framesInTime ∧ rx = { s.rx with periods := s.rx.periods + 1 }) →
    (s.tx.sent < 15 → exec .referenceFramePeriod s = .next { s with
      rx := rx, sent := some ⟨silence, s.tx.word s.tx.sent⟩, tx := { s.tx with sent := s.tx.sent + 1 } }) ∧
    (s.tx.sent = 15 → exec .referenceFramePeriod s = .next { s with
      rx := rx
      sent := some ⟨silence, s.tx.word 15⟩
      tx := { s.tx with sent := 16 }
      cells := { s.cells with
        forward := if s.tx.source = .forward then s.cells.forward.drop 1 else s.cells.forward
        responses := if s.tx.source = .response then s.cells.responses.drop 1 else s.cells.responses }
      notice := { s.notice with
        state := if s.tx.source = .notice then
            (match s.notice.state with | .none => .none | .pending => .pending | .sending => .none | .sendingAgain => .pending)
          else s.notice.state } }) ∧
    (∀ cell source, 16 ≤ s.tx.sent →
      s.OffersCell cell source →
      exec .referenceFramePeriod s = .next { s with
        rx := rx
        sent := some ⟨silence, (0x6B2D : BitVec 16) ++ (0b10 : BitVec 8) ++ s.rx.hop⟩
        tx :=
          { time := s.tx.time + 16, absent := true, bypass := false, hop := s.rx.hop, cell := cell, source := source, sent := 1 }
        notice := { s.notice with state := if s.notice.state = .none then .none else .sending } }) ∧
  (∀ s : State, s.followsTheLink →
    exec .referenceFramePeriod s = .next { s with rx := { s.rx with periods := s.rx.periods + 1 } })

/-- The service words of an outbound superframe are its header, its link time and the bytes of its cell, four to a word. Each frame
of SETTLING and RUNNING that leaves the lock held enters the delay line and the filters, and the frame written 128 frames before is
sent: silent in a MUTE slot, under the applied gain in a MEMBER slot in RUNNING, unchanged in every other case. It carries service word
0 of the outbound superframe that begins with it, or the next word of the one in progress. Past the sixteenth the word is free:
assumption 2. -/
def Obligations.FramesPassTheDelayLine : Prop :=
  (∀ o : OutSuperframe,
    o.word 0 = (0x6B2D : BitVec 16) ++
      ((if o.absent then 0b10 else 0) ||| (if o.bypass then 0b01 else 0) : BitVec 8) ++ o.hop ∧
    o.word 1 = o.time ∧
    ∀ k, 2 ≤ k → k ≤ 15 → o.word k =
      o.cell.getD (4 * (k - 2)) 0 ++ o.cell.getD (4 * (k - 2) + 1) 0 ++ o.cell.getD (4 * (k - 2) + 2) 0 ++
        o.cell.getD (4 * (k - 2) + 3) 0) ∧
  (∀ (s : State) (f : Frame), s.followsTheLink → ∃ t, exec (.inboundFrame f) s = .next t ∧
    (t.rx.lock = .search ∨
      t.delay = s.delay.drop 1 ++ [f.samples] ∧ t.filterInput = f.samples :: s.filterInput ∧ t.slots = s.slots ∧
      ∃ out, t.sent = some out ∧
        (s.rx.words.length = 16 → out.service = t.tx.word 0) ∧
        (s.rx.words.length ≠ 16 → s.tx.sent < 16 → out.service = s.tx.word s.tx.sent) ∧
        ∀ (i : SlotNo) (x : Sample), x = (s.delay.headD silence)[i] →
          (s.slots[i] = .mute → out.samples[i] = 0) ∧
          (s.slots[i] = .pass → out.samples[i] = x) ∧
          (∀ p w, s.slots[i] = .measure p w → out.samples[i] = x) ∧
          (∀ p w, s.slots[i] = .member p w → out.samples[i] =
            if t.rx.lock = .running then gainSample x (max (-4000) (t.gains[p].current - 10 * t.gains[p].reduction)) else x)))

/-- A sample under a gain of `g` steps of 0.01 dB is multiplied by 10^(g/2000), rounded to the nearest integer with halves away
from zero, and limited to the range of a sample. -/
def Obligations.GainedSamplesAreRounded : Prop :=
  ∀ (x : Sample) (g : Int), ∀ y : ℝ, y = |(x.toInt : ℝ)| * (10 : ℝ) ^ ((g : ℝ) / 2000) →
    (gainSample x g).toInt = if x.toInt < 0 then -min ⌊y + 1 / 2⌋ 8388608 else min ⌊y + 1 / 2⌋ 8388607

/-- The cell of a superframe is lifted from its service words 2 to 15, four bytes to a word, the lowest-numbered byte in the most
significant place. At frame 15 the cell of a superframe whose header was valid is sorted, and no other cell is handed on: an idle cell
is ignored, a failed check counted, a response or notice to the part discarded, a request joins the request queue, and any other cell
the forward queue, a broadcast IDENT both or neither; a cell for a full queue is dropped and counted. CELL_LOSS is claimed where a cell
fails its check or is dropped, and no flag changes otherwise. Where the frame's sent report removes the head of the forward queue, the
report and the arrival may come in either order where that queue is full: assumption 5. That a cell for a full request
queue is dropped where the sent report of a response makes the taking of that queue's head possible is the model's choice:
assumption 31. -/
def Obligations.ArrivingCellsAreSorted : Prop :=
  (∀ words : List ServiceWord, words.length = 16 → (cellOfWords words).length = 56 ∧
    ∀ k i : Nat, 2 ≤ k → k ≤ 15 → i < 4 →
      (cellOfWords words).getD (4 * (k - 2) + i) 0 = (words.getD k 0).extractLsb' (8 * (3 - i)) 8) ∧
  (∀ (s : State) (f : Frame) (kept : List Cell), s.followsTheLink → s.rx.words.length = 15 → s.rx.header ≠ .valid →
    kept = (if s.reportDue = some .forward then s.cells.forward.drop 1 else s.cells.forward) →
    ∃ t, exec (.inboundFrame f) s = .next t ∧ t.cells.requests = s.cells.requests ∧ t.cells.forward = kept ∧
      t.cells.crcErrors = s.cells.crcErrors ∧ t.cells.dropped = s.cells.dropped ∧ t.notice.flags = s.notice.flags) ∧
  (∀ (s : State) (f : Frame) (c : Cell) (kept : List Cell) (joined dropped : State → Prop), s.followsTheLink →
    s.rx.words.length = 15 → s.rx.header = .valid → c = cellOfWords (s.rx.words ++ [f.service]) →
    kept = (if s.reportDue = some .forward then s.cells.forward.drop 1 else s.cells.forward) →
    (∀ t, joined t ↔ t.cells.forward =
        (if s.reportDue = some .forward then (s.cells.forward ++ [c]).drop 1 else s.cells.forward ++ [c]) ∧
      t.cells.dropped = s.cells.dropped ∧ t.notice.flags = s.notice.flags) →
    (∀ t, dropped t ↔ t.cells.forward = kept ∧ t.cells.dropped = min 65535 (s.cells.dropped + 1) ∧
      t.notice.flags = s.notice.flags ||| 0x100) →
    ∃ t, exec (.inboundFrame f) s = .next t ∧
      ((Cell.destination c = 0 ∨
          (Cell.checks c = true ∧ Cell.destination c = s.address ∧ 0x80 ≤ Cell.kind c)) →
        t.cells.requests = s.cells.requests ∧ t.cells.crcErrors = s.cells.crcErrors ∧ t.cells.dropped = s.cells.dropped ∧
          t.cells.forward = kept ∧ t.notice.flags = s.notice.flags) ∧
      (Cell.destination c ≠ 0 → Cell.checks c = false →
        t.cells.requests = s.cells.requests ∧ t.cells.crcErrors = min 65535 (s.cells.crcErrors + 1) ∧
          t.cells.dropped = s.cells.dropped ∧ t.notice.flags = s.notice.flags ||| 0x100 ∧ t.cells.forward = kept) ∧
      (Cell.destination c = s.address → Cell.checks c = true → Cell.kind c < 0x80 →
        t.cells.crcErrors = s.cells.crcErrors ∧ t.cells.forward = kept ∧
        (s.cells.requests.length < 4 → t.cells.requests = s.cells.requests ++ [c] ∧ t.cells.dropped = s.cells.dropped ∧
          t.notice.flags = s.notice.flags) ∧
        (4 ≤ s.cells.requests.length → t.cells.requests = s.cells.requests ∧
          t.cells.dropped = min 65535 (s.cells.dropped + 1) ∧ t.notice.flags = s.notice.flags ||| 0x100)) ∧
      (Cell.destination c = 0xFF → Cell.checks c = true → Cell.kind c = 0x01 →
        t.cells.crcErrors = s.cells.crcErrors ∧
        (s.cells.requests.length < 4 → s.cells.forward.length < 4 →
          t.cells.requests = s.cells.requests ++ [c] ∧ joined t) ∧
        (4 ≤ s.cells.requests.length → t.cells.requests = s.cells.requests ∧ dropped t) ∧
        (4 ≤ s.cells.forward.length → s.reportDue ≠ some .forward → t.cells.requests = s.cells.requests ∧ dropped t) ∧
        (s.cells.requests.length < 4 → s.cells.forward.length = 4 → s.reportDue = some .forward →
          (t.cells.requests = s.cells.requests ++ [c] ∧ joined t) ∨ (t.cells.requests = s.cells.requests ∧ dropped t))) ∧
      (Cell.destination c ≠ 0 → Cell.destination c ≠ s.address →
        ¬(Cell.destination c = 0xFF ∧ Cell.kind c = 0x01) → Cell.checks c = true →
        t.cells.requests = s.cells.requests ∧ t.cells.crcErrors = s.cells.crcErrors ∧
        (s.cells.forward.length < 4 → joined t) ∧
        (4 ≤ s.cells.forward.length → s.reportDue ≠ some .forward → dropped t) ∧
        (s.cells.forward.length = 4 → s.reportDue = some .forward → joined t ∨ dropped t)))

/-! ### Measurement -/

/-- WINDOW_COMPLETION: a programme named in the held segment starts has its window discarded and its segment started; any other
whose 75th block has closed has its window entered by its state, its retune requested in TRACKING alone, and reported; every other
programme is left as it was. PRESENCE is claimed where some presence has moved away from its reference, and in no other case. That the
segment starts of a boundary are held until this command, and take effect here, is the model's choice: assumption 17. -/
def Obligations.WindowsAreCompletedOrDiscarded : Prop :=
  ∀ (s : State) (starts : ProgSet), s.heldStarts = some starts → ∃ t, exec .windowCompletion s = .next t ∧
    t = { s with
      heldStarts := none, meters := t.meters, progs := t.progs, notice := t.notice
      arbiter := { s.arbiter with retune := t.arbiter.retune, rescale := t.arbiter.rescale } } ∧
    ∀ p : Prog,
      (ProgSet.mem starts p = true →
        t.meters[p] = { s.meters[p] with
          window := s.meters[p].window.map fun _ => [], complete := none, ring := []
          histogram := Vector.replicate 300 0, total := 0, lastShort := none, lastIntegrated := none } ∧
        t.progs[p] = { s.progs[p] with generation := s.progs[p].generation + 1 }) ∧
      (ProgSet.mem starts p = false → s.meters[p].complete = none → t.meters[p] = s.meters[p] ∧ t.progs[p] = s.progs[p]) ∧
      (ProgSet.mem starts p = true ∨ s.meters[p].complete = none ∨ s.progs[p].state ≠ .tracking →
        ProgSet.mem t.arbiter.retune p = ProgSet.mem s.arbiter.retune p ∧
          ProgSet.mem t.arbiter.rescale p = ProgSet.mem s.arbiter.rescale p) ∧
      (∀ blocks loudness loud run presence moved, ProgSet.mem starts p = false → s.meters[p].complete = some blocks →
        s.progs[p].state ≠ .unused → loudness = windowLoudness blocks →
        loud = decide (∃ v, loudness = some v ∧ (s.activeProfile p).presenceThreshold ≤ v) →
        run = (if loud then 0 else min 255 (s.progs[p].silentRun + 1)) →
        presence = (if loud then .present else if (s.activeProfile p).silenceWindows ≤ run then .silent
          else s.progs[p].presence) →
        moved = (if presence = s.progs[p].presence then s.progs[p].state
          else match s.progs[p].state, presence with
            | .dormant, .present => .tracking
            | .tracking, .silent => .dormant
            | st, _ => st) →
        t.progs[p] = { s.progs[p] with
          presence := presence, silentRun := run, state := moved
          generation := if moved = s.progs[p].state then s.progs[p].generation else s.progs[p].generation + 1 } ∧
        ((s.progs[p].state = .dormant ∨ loudness = none) → t.meters[p] = { s.meters[p] with complete := none }) ∧
        (∀ v, s.progs[p].state ≠ .dormant → loudness = some v →
          t.meters[p] = { s.meters[p] with
            complete := none, ring := (s.meters[p].ring ++ [v]).drop (s.meters[p].ring.length + 1 - 30)
            histogram := t.meters[p].histogram, total := t.meters[p].total } ∧
          (v < (s.activeProfile p).absoluteGate →
            t.meters[p].histogram = s.meters[p].histogram ∧ t.meters[p].total = s.meters[p].total) ∧
          ((s.activeProfile p).absoluteGate ≤ v → t.meters[p].total = min 4294967295 (s.meters[p].total + 1) ∧
            ∀ k : Fin 300, t.meters[p].histogram[k] = if (k : Nat) = min 299 ((v + 700) / 2).toNat
              then min 65535 (s.meters[p].histogram[k] + 1) else s.meters[p].histogram[k])) ∧
        (s.progs[p].state = .tracking → ProgSet.mem t.arbiter.retune p =
            (decide (moved = .tracking) && (s.arbiter.retuneOn || ProgSet.mem s.arbiter.retune p)) ∧
          ProgSet.mem t.arbiter.rescale p = (decide (moved = .tracking) && ProgSet.mem s.arbiter.rescale p)) ∧
        (presence ≠ s.progs[p].presence → presence ≠ s.progs[p].reference → t.notice = (s.claim .presence).notice)) ∧
      ((∀ r : Prog, t.progs[r].presence = s.progs[r].presence ∨ t.progs[r].presence = s.progs[r].reference) →
        t.notice = s.notice)

/-- The loudness of a window of 75 blocks: 10 log10 of the mean of the block powers, less 0.70, rounded to the nearest 0.1 LU with
halves toward the higher value; none where the power is 0 or the loudness below -70.0 LUFS, and at most +20.0 LUFS. -/
def Obligations.WindowLoudnessIsTheMeanPower : Prop :=
  ∀ (blocks : List BlockPower) (power : ℝ), blocks.length = 75 → (∀ b ∈ blocks, 0 < b.frames) →
    power = (blocks.map fun b => (b.sum : ℝ) / (100 * 2 ^ 46) / b.frames).sum / 75 →
    (power = 0 → windowLoudness blocks = none) ∧
    (∀ n : Int, power ≠ 0 → n = ⌊10 * (10 * Real.logb 10 power - 7 / 10) + 1 / 2⌋ →
      windowLoudness blocks = if n < -700 then none else some (min 200 n))

/-- The values formed at a grant. The short-term value is the energy mean of the ring, absent where the ring is empty. The integrated
value is formed in two passes over the histogram, the second over the bins at or above the first pass's value plus the relative
offset, and absent where every bin is 0. The blend value is the integrated value from a total of 30 on, else the short-term value.
That the exact rounding is always reached is the estimate of assumption 7. -/
def Obligations.MeasuredValuesAreEnergyMeans : Prop :=
  ∀ (s : State) (p : Prog) (offset : Int) (v : Option Int × Option Int × Option Int) (bins : List (Nat × Int)),
    v = s.measuredValues p offset → (∀ l ∈ s.meters[p].ring, -700 ≤ l ∧ l ≤ 200) → offset ≤ -10 →
    bins = (List.finRange 300).map (fun k : Fin 300 => (s.meters[p].histogram[k], -699 + 2 * ((k : Nat) : Int))) →
    (s.meters[p].ring = [] → v.1 = none) ∧
    (s.meters[p].ring ≠ [] → ∃ n, v.1 = some n ∧ IsEnergyMean (s.meters[p].ring.map fun l => (1, l)) n) ∧
    ((∀ k : Fin 300, s.meters[p].histogram[k] = 0) → v.2.1 = none) ∧
    ((∃ k : Fin 300, s.meters[p].histogram[k] ≠ 0) → ∃ first n, IsEnergyMean bins first ∧ v.2.1 = some n ∧
      IsEnergyMean (bins.filter fun x => decide (first + offset ≤ x.2)) n) ∧
    (s.meters[p].total ≤ 29 → v.2.2 = v.1) ∧ (30 ≤ s.meters[p].total → v.2.2 = v.2.1)

/-- The frames that mark no block boundary. One frame adds to a programme's sum, over its measured slots, the square of the filtered
sample times the weight factor in hundredths: 100 in FULL, 141 in SIDE, 0 in NONE. Each such frame of RUNNING adds this to the sum of
every programme that is not UNUSED and counts itself, and the frame check raises the reduction of each to the need of the frame that
leaves, where that is greater. Beside these only the link side, the cells held for the link and the notice can change. A frame that is
neither frame 0 nor frame 1 of its superframe adds its service word to the superframe, starts the count of reference periods again and
takes one frame of the outbound superframe in progress; and where it completes neither an outbound superframe nor an inbound one of
valid header, the cells and the notice stay too. Outside RUNNING no frame adds anything or is checked. -/
def Obligations.FramesAddToTheBlocksAndAreChecked : Prop :=
  (∀ (s : State) (p : Prog) (hundredths : SlotNo → Nat),
    (∀ i, hundredths i = match s.slots[i] with
      | .member q w | .measure q w => if q = p then (match w with | .full => 100 | .side => 141 | .none => 0) else 0
      | .pass | .mute => 0) →
    s.framePower p =
      ∑ i : SlotNo, hundredths i * (Config.weighting (s.filterInput.map fun f => f[i])).toInt.natAbs ^ 2) ∧
  (∀ (s : State) (f : Frame), s.followsTheLink →
    (s.rx.words.length = 16 → ∃ e, s.rx.expected = some e ∧ e.toNat % 64 ≠ 0) →
    ∃ t, exec (.inboundFrame f) s = .next t ∧ (t.rx.lock = .search ∨ t.rx.lock = s.rx.lock ∧
      t.filterInput = f.samples :: s.filterInput ∧
      t = { s with
        rx := t.rx, tx := t.tx, sent := t.sent, delay := t.delay, filterInput := t.filterInput, meters := t.meters
        gains := t.gains, cells := { t.cells with inHand := s.cells.inHand }
        notice := { s.notice with flags := t.notice.flags, state := t.notice.state }, fresh := t.fresh } ∧
      ∀ p : Prog,
        (s.rx.lock = .running → s.progs[p].state ≠ .unused →
          t.meters[p] = { s.meters[p] with sum := s.meters[p].sum + t.framePower p, frames := s.meters[p].frames + 1 } ∧
          t.gains[p] = { s.gains[p] with
            reduction := max s.gains[p].reduction (peakLevel (s.largestMagnitude p [s.delay.headD silence]) s.gains[p].current -
              (s.activeProfile p).ceiling).toNat }) ∧
        (s.rx.lock = .settling ∨ s.progs[p].state = .unused → t.meters[p] = s.meters[p] ∧ t.gains[p] = s.gains[p]))) ∧
  (∀ (s : State) (f : Frame), s.followsTheLink → s.rx.words.length ≠ 1 → s.rx.words.length ≠ 16 →
    ∃ t, exec (.inboundFrame f) s = .next t ∧
      t.rx = { s.rx with periods := 0, timeouts := 0, words := s.rx.words ++ [f.service] } ∧
      t.tx = (if s.tx.sent < 16 then { s.tx with sent := s.tx.sent + 1 } else s.tx) ∧
      (s.tx.sent ≠ 15 → ¬(s.rx.words.length = 15 ∧ s.rx.header = .valid) →
        t = { s with
          rx := t.rx, tx := t.tx, sent := t.sent, delay := t.delay, filterInput := t.filterInput, meters := t.meters
          gains := t.gains, fresh := if s.tx.sent < 16 then s.fresh else s.fresh + 1 })) ∧
  (∀ (s : State) (f : Frame), s.rx.lock = .search ∨ s.rx.lock = .confirm →
    ∃ t, exec (.inboundFrame f) s = .next t ∧ t.meters = s.meters ∧ t.gains = s.gains)

/-- A block boundary of RUNNING, the one at which it is entered included: PENDING cues become DUE, the segment starts of the boundary
are held, each open programme's block is closed into its window, or at the entry its window begins anew and its guard window too, and
the Gain Stage works; then the frame that marks it is added up and checked. What had to happen before the boundary happens first, the
windows before the operation: assumptions 11 and 29. That the segment starts are held is assumption 17. A late entry becomes DUE by its due block
alone: assumption 30. -/
def Obligations.ABoundaryOfRunningWorksCuesMeterAndGains : Prop :=
  ∀ (s u : State) (f : Frame) (e : LinkTime) (entry : Bool), s.followsTheLink → s.rx.words.length = 16 →
    s.rx.expected = some e → e.toNat % 64 = 0 → u = s.settleBeforeBoundary →
    entry = decide (s.rx.lock = .settling ∧ ∃ n, s.rx.settle = some n ∧ 16 * 4 ^ s.straps.settle.toNat ≤ min 1024 (n + 1)) →
    s.rx.lock = .running ∨ entry = true →
    ∃ t starts, exec (.inboundFrame f) s = .next t ∧ t.rx.lock = .running ∧ t.owed = 0 ∧ t.heldStarts = some starts ∧
      t.progs = u.progs ∧ t.slots = u.slots ∧ t.profiles = u.profiles ∧
      t.cues = (u.cues.map fun c => if c.due = false ∧ atOrBefore c.block e = true
        then { c with due := true, late := c.late || before c.block e } else c) ∧
      ∀ p : Prog,
        (ProgSet.mem starts p = true ↔
          (∃ c ∈ u.cues, c.prog = p ∧ c.kind = .segment ∧ c.due = false ∧ atOrBefore c.block e = true) ∨
            ProgSet.mem u.owed p = true ∨ u.meters[p].resetMark = true) ∧
        (u.progs[p].state ≠ .unused →
          t.meters[p].frames = 1 ∧ t.meters[p].sum = t.framePower p ∧ t.meters[p].resetMark = false ∧
          (∀ blocks, entry = false → u.meters[p].window = some blocks →
            (blocks.length ≠ 74 → t.meters[p].window = some (blocks ++ [⟨u.meters[p].sum, u.meters[p].frames⟩]) ∧
              t.meters[p].complete = u.meters[p].complete) ∧
            (blocks.length = 74 → t.meters[p].window = some [] ∧
              t.meters[p].complete = some (blocks ++ [⟨u.meters[p].sum, u.meters[p].frames⟩]))) ∧
          (entry = true ∨ u.meters[p].window = none → t.meters[p].window = some [] ∧
            t.meters[p].complete = u.meters[p].complete) ∧
          (t.meters[p].ring = u.meters[p].ring ∧ t.meters[p].histogram = u.meters[p].histogram ∧
            t.meters[p].total = u.meters[p].total ∧ t.meters[p].lastShort = u.meters[p].lastShort ∧
            t.meters[p].lastIntegrated = u.meters[p].lastIntegrated) ∧
          t.gains[p] = (u.gains[p].boundaryWork (u.activeProfile p) e entry (u.largestMagnitude p (u.delay.take 64))).raiseTo
            (u.largestMagnitude p [u.delay.headD silence]) (u.activeProfile p).ceiling) ∧
        (u.progs[p].state = .unused → t.gains[p] = u.gains[p] ∧ t.meters[p] = u.meters[p])

/-- What had to happen before a boundary is WINDOW_COMPLETION and then, where the operation in flight has seen a boundary, its
completion. A block boundary in SETTLING and in RUNNING: every pending table is swapped, and each TRACKING programme whose active profile names
one is requested for the rescale set; the operation in flight counts the boundary, or a RETUNE or RESCALE is cancelled where an entry
becomes eligible; SWAP_DONE, CUE_LATE and GUARD_PRESSURE are claimed where they arise, and no other condition. In SETTLING each
segment-reset mark starts its segment, and the cues and the gains stay. What had to happen before the boundary happens first, the
windows before the operation: assumptions 11 and 29. CUE_LATE is claimed by the due blocks alone: assumption 30. -/
def Obligations.EveryBoundarySwapsCountsAndClaims : Prop :=
  (∀ s u v : State, exec .windowCompletion s = .next v → u = s.settleBeforeBoundary →
    ((∀ g, v.engine = some g → g.boundaries = 0) → u = v) ∧
    (∀ g, v.engine = some g → 1 ≤ g.boundaries →
      (g.op = .retune → exec .retuneCompletion v = .next u) ∧
      (g.op = .rescale → exec .rescaleCompletion v = .next u) ∧
      (∀ e, g.op = .cue e → exec .cueCompletion v = .next u) ∧
      (∀ expected new r, g.op = .directive (.exchange expected new) r → exec .profileExchangeCompletion v = .next u) ∧
      (∀ gain snap r, g.op = .directive (.force gain snap) r → exec .gainForceCompletion v = .next u) ∧
      (∀ r, g.op = .directive .release r → exec .gainReleaseCompletion v = .next u) ∧
      (∀ q r, g.op = .probe q r → exec .probeCompletion v = .next u))) ∧
  ∀ (s u : State) (f : Frame) (e : LinkTime), s.followsTheLink → s.rx.words.length = 16 → s.rx.expected = some e →
    e.toNat % 64 = 0 → u = s.settleBeforeBoundary →
    ∃ t, exec (.inboundFrame f) s = .next t ∧ t.straps = s.straps ∧ t.slots = u.slots ∧ t.profiles = u.profiles ∧
      (∀ k : TableNo, t.laws[k] = if u.laws[k].pending = true
        then { u.laws[k] with active := u.laws[k].active.other, pending := false } else u.laws[k]) ∧
      (∀ cancelled : Bool,
        (cancelled = true ↔ ∃ g c, u.engine = some g ∧ (g.op = .retune ∨ g.op = .rescale) ∧ t.eligible c = true ∧
          u.eligible c = false) →
        t.engine = (if cancelled then none else u.engine.map fun g => { g with boundaries := g.boundaries + 1 }) ∧
        t.lawMark = (if cancelled then none else u.lawMark) ∧
        t.arbiter = { u.arbiter with retune := t.arbiter.retune, rescale := t.arbiter.rescale } ∧
        ∀ p : Prog,
          (ProgSet.mem t.arbiter.rescale p = true ↔ ProgSet.mem u.arbiter.rescale p = true ∨
            (u.arbiter.rescaleOn = true ∧ u.progs[p].state = .tracking ∧
              (u.laws[(u.activeProfile p).lawTable].pending = true ∨
                (cancelled = true ∧ ∃ g, u.engine = some g ∧ g.op = .rescale ∧ g.prog = p)))) ∧
          (ProgSet.mem t.arbiter.retune p = true ↔ ProgSet.mem u.arbiter.retune p = true ∨
            (u.arbiter.retuneOn = true ∧ u.progs[p].state = .tracking ∧
              cancelled = true ∧ ∃ g, u.engine = some g ∧ g.op = .retune ∧ g.prog = p))) ∧
      (∀ k : Condition, t.notice.flags.getLsbD k.bit = true ↔ u.notice.flags.getLsbD k.bit = true ∨
        (k = .swapDone ∧ ∃ j : TableNo, u.laws[j].pending = true) ∨
        (k = .cueLate ∧ t.rx.lock = .running ∧
          ((∃ c ∈ u.cues, c.due = false ∧ atOrBefore c.block e = true ∧ before c.block e = true) ∨
            ∃ p : Prog, u.progs[p].state ≠ .unused ∧
              ∃ x ∈ u.gains[p].staged, atOrBefore x.boundary e = true ∧ before x.boundary e = true)) ∨
        (k = .guardPressure ∧ ∃ p : Prog, u.gains[p].pressure = false ∧ t.gains[p].pressure = true)) ∧
      (t.rx.lock = .settling → t.cues = u.cues ∧ t.owed = u.owed ∧ t.heldStarts = u.heldStarts ∧ t.gains = u.gains ∧
        ∀ p : Prog,
          (u.meters[p].resetMark = false → t.meters[p] = u.meters[p] ∧ t.progs[p] = u.progs[p]) ∧
          (u.meters[p].resetMark = true →
            t.meters[p] = { u.meters[p] with
              window := u.meters[p].window.map fun _ => [], complete := none, ring := []
              histogram := Vector.replicate 300 0, total := 0, lastShort := none, lastIntegrated := none
              resetMark := false } ∧
            t.progs[p] = { u.progs[p] with generation := u.progs[p].generation + 1 }))

/-! ### The Gain Stage -/

/-- The work of a boundary on the two gains: the entries that are due act first, as R146 gives, and leave the staged list; then a
set snap request sets the current gain to the target and is cleared; and where no snap was made the current gain moves toward the
target by S div 4 steps and the extra step of its position, stopping at the target. Over the four positions the steps are S. -/
def Obligations.BoundariesMoveTheGains : Prop :=
  (∀ (q : Profile) (t : LinkTime) (entry : Bool) (m : Nat) (g after : GainRecord) (extra : Nat → Nat),
    after = g.boundaryWork q t entry m →
    (∀ n, extra n = if n % 4 = 1 ∧ t.toNat / 64 % 4 = 3 ∨ n % 4 = 2 ∧ (t.toNat / 64 % 4 = 1 ∨ t.toNat / 64 % 4 = 3) ∨
      n % 4 = 3 ∧ t.toNat / 64 % 4 ≠ 0 then 1 else 0) →
    after.snap = false ∧
    (g.snap = true → after.current = after.target) ∧
    (g.snap = false → (∀ e ∈ g.staged, atOrBefore e.boundary t = true → e.snap = false) → after.current =
      if g.current < after.target then min after.target (g.current + (q.raiseSlew / 4 + extra q.raiseSlew : Nat))
      else if after.target < g.current then max after.target (g.current - (q.lowerSlew / 4 + extra q.lowerSlew : Nat))
      else g.current) ∧
    (∀ early e later, g.snap = false → g.staged = early ++ e :: later → atOrBefore e.boundary t = true → e.kind ≠ .hold →
      e.snap = true → (∀ x ∈ later, atOrBefore x.boundary t = true → x.snap = false) →
      (∀ v, e.gain = some v → after.current = clampGain q.gainMin q.gainMax v) ∧
      (e.gain = none → (∀ x ∈ early, atOrBefore x.boundary t = false) → after.current = g.target) ∧
      (e.gain = none → (∀ x ∈ later, atOrBefore x.boundary t = false) → after.current = after.target))) ∧
  (∀ (q : Profile) (t : LinkTime) (entry : Bool) (m : Nat) (g after : GainRecord), after = g.boundaryWork q t entry m →
    after.staged = g.staged.filter (fun e => !atOrBefore e.boundary t) ∧
    ((∀ e ∈ g.staged, atOrBefore e.boundary t = false) → after.target = g.target) ∧
    (∀ e rest, g.staged = e :: rest → atOrBefore e.boundary t = true → (∀ x ∈ rest, atOrBefore x.boundary t = false) →
      (e.kind = .hold → after.target = clampGain q.gainMin q.gainMax g.current) ∧
      (∀ v, e.kind ≠ .hold → e.gain = some v → after.target = clampGain q.gainMin q.gainMax v) ∧
      (e.kind ≠ .hold → e.gain = none → after.target = g.target)) ∧
    (∀ e1 e2 rest target current, g.staged = e1 :: e2 :: rest → atOrBefore e1.boundary t = true →
      atOrBefore e2.boundary t = true → (∀ x ∈ rest, atOrBefore x.boundary t = false) →
      target = (if e1.kind = .hold then clampGain q.gainMin q.gainMax g.current
        else match e1.gain with | some v => clampGain q.gainMin q.gainMax v | none => g.target) →
      current = (if e1.kind ≠ .hold ∧ e1.snap = true then target else g.current) →
      (e2.kind = .hold → after.target = clampGain q.gainMin q.gainMax current) ∧
      (∀ v, e2.kind ≠ .hold → e2.gain = some v → after.target = clampGain q.gainMin q.gainMax v) ∧
      (e2.kind ≠ .hold → e2.gain = none → after.target = target))) ∧
  (∀ n : Nat, rampSteps n 0 + rampSteps n 1 + rampSteps n 2 + rampSteps n 3 = n)

/-- The peak guard: the peak level of a magnitude under a gain is its level rounded up to 0.1 dB and at least -120.0 dBFS; at a
boundary the reduction rises to the need at once and falls by at most the release; and the block is counted into the guard
window, which sets or clears the pressure flag at its 75th block. The magnitude weighed is the largest of the programme's MEMBER
samples, and the frame check raises the reduction to the need where that is greater. -/
def Obligations.TheGuardMeetsTheNeed : Prop :=
  (∀ (s : State) (p : Prog) (frames : List Samples) (weighed : Samples → SlotNo → Prop),
    (∀ f i, weighed f i ↔ f ∈ frames ∧ ∃ w, s.slots[i] = .member p w) →
    (∀ f i, weighed f i → (f[i] : Sample).toInt.natAbs ≤ s.largestMagnitude p frames) ∧
    (s.largestMagnitude p frames = 0 ∨
      ∃ f i, weighed f i ∧ s.largestMagnitude p frames = (f[i] : Sample).toInt.natAbs)) ∧
  (∀ (g : GainRecord) (m : Nat) (ceiling : Int),
    g.raiseTo m ceiling = { g with reduction := max g.reduction (peakLevel m g.current - ceiling).toNat }) ∧
  (∀ (m : Nat) (c : Int), m ≤ 8388608 → -4000 ≤ c → c ≤ 2000 →
    (m = 0 → peakLevel m c = -1200) ∧
    (m ≠ 0 → peakLevel m c =
      max (-1200) ⌈10 * (20 * Real.logb 10 ((m : ℝ) * (10 : ℝ) ^ ((c : ℝ) / 2000) / 8388608))⌉)) ∧
  (∀ (q : Profile) (t : LinkTime) (entry : Bool) (m : Nat) (g after : GainRecord) (need length count : Nat),
    after = g.boundaryWork q t entry m → need = (peakLevel m after.current - q.ceiling).toNat →
    length = (if entry then 0 else g.guardLength) + 1 →
    count = (if entry then 0 else g.guardCount) + (if 0 < after.reduction then 1 else 0) →
    after.reduction = (if g.reduction < need then need else max need (g.reduction - q.guardRelease)) ∧
    (length < 75 → after.guardLength = length ∧ after.guardCount = count ∧ after.pressure = g.pressure) ∧
    (75 ≤ length → after.guardLength = 0 ∧ after.guardCount = 0 ∧
      (after.pressure = true ↔ q.pressureThreshold ≤ count)))

/-- While RUNNING no MEMBER sample sent exceeds the ceiling of its programme's active profile: whatever frame arrives, in every
state whose gains are kept in range. -/
def Obligations.NoMemberSampleExceedsItsCeiling : Prop :=
  ∀ (s t : State) (f : Frame), s.GainsKept → s.SlotsKept → exec (.inboundFrame f) s = .next t → t.rx.lock = .running →
    ∃ out, t.sent = some out ∧ ∀ (i : SlotNo) (p : Prog) (w : WeightClass), t.slots[i] = .member p w →
      underCeiling out.samples[i] (t.activeProfile p).ceiling

/-! ### Invariants of every step -/

/-- Every step keeps the queues within their limits, and the staged lists within theirs. -/
def Obligations.StepsKeepTheLimits : Prop :=
  ∀ s t : State, step s = .next t → (s.WithinLimits → t.WithinLimits) ∧ (s.StagedKept → t.StagedKept)

/-- Every step keeps the slots, what names an open programme, and the Cue Queue within 32 entries of which no two are alike. -/
def Obligations.StepsKeepWhatNamesAProgramme : Prop :=
  ∀ s t : State, step s = .next t →
    (s.SlotsKept → t.SlotsKept) ∧ (s.NamesOpen → t.NamesOpen) ∧ (s.CuesKept → t.CuesKept)

/-- Every step keeps every profile legal and every gain in its range. -/
def Obligations.StepsKeepTheGainsInRange : Prop :=
  ∀ s t : State, step s = .next t → s.GainsKept → t.GainsKept

/-- Every step keeps the active bank of every law table valid, the in-use mark on the bank of the operation in flight, and presence
in agreement with the state of every programme. -/
def Obligations.StepsKeepTheLawsAndTheMark : Prop :=
  ∀ s t : State, step s = .next t →
    (s.LawsKept → t.LawsKept) ∧ (s.MarkKept → t.MarkKept) ∧ (s.PresenceKept → t.PresenceKept)

/-- Every step keeps the Meter's collections and the link side in their bounds. That the count of missing frames stays in its own is
assumption 10. -/
def Obligations.StepsKeepTheMeterAndTheLink : Prop :=
  ∀ s t : State, step s = .next t → (s.MeterKept → t.MeterKept) ∧ (s.LinkKept → t.LinkKept)
end

