-- ==== Sys2Proof/Laws/State.lean ====
section
/-! SUPPORT. One lemma for each field and each named update of the state: the field as the update leaves it. All are true by
definition, so no proof need unfold a record update. -/

namespace Sys2Proof.Machine

variable (s : State)

/-! ### `State.setRx` -/

@[simp] theorem State.setRx_straps (r : Receiver) : (s.setRx r).straps = s.straps := rfl
@[simp] theorem State.setRx_rx (r : Receiver) :
    (s.setRx r).rx = r := rfl
@[simp] theorem State.setRx_tx (r : Receiver) : (s.setRx r).tx = s.tx := rfl
@[simp] theorem State.setRx_sent (r : Receiver) : (s.setRx r).sent = s.sent := rfl
@[simp] theorem State.setRx_delay (r : Receiver) : (s.setRx r).delay = s.delay := rfl
@[simp] theorem State.setRx_filterInput (r : Receiver) : (s.setRx r).filterInput = s.filterInput := rfl
@[simp] theorem State.setRx_slots (r : Receiver) : (s.setRx r).slots = s.slots := rfl
@[simp] theorem State.setRx_progs (r : Receiver) : (s.setRx r).progs = s.progs := rfl
@[simp] theorem State.setRx_meters (r : Receiver) : (s.setRx r).meters = s.meters := rfl
@[simp] theorem State.setRx_heldStarts (r : Receiver) : (s.setRx r).heldStarts = s.heldStarts := rfl
@[simp] theorem State.setRx_profiles (r : Receiver) : (s.setRx r).profiles = s.profiles := rfl
@[simp] theorem State.setRx_laws (r : Receiver) : (s.setRx r).laws = s.laws := rfl
@[simp] theorem State.setRx_lawMark (r : Receiver) : (s.setRx r).lawMark = s.lawMark := rfl
@[simp] theorem State.setRx_arbiter (r : Receiver) : (s.setRx r).arbiter = s.arbiter := rfl
@[simp] theorem State.setRx_engine (r : Receiver) : (s.setRx r).engine = s.engine := rfl
@[simp] theorem State.setRx_cues (r : Receiver) : (s.setRx r).cues = s.cues := rfl
@[simp] theorem State.setRx_owed (r : Receiver) : (s.setRx r).owed = s.owed := rfl
@[simp] theorem State.setRx_gains (r : Receiver) : (s.setRx r).gains = s.gains := rfl
@[simp] theorem State.setRx_cells (r : Receiver) : (s.setRx r).cells = s.cells := rfl
@[simp] theorem State.setRx_notice (r : Receiver) : (s.setRx r).notice = s.notice := rfl
@[simp] theorem State.setRx_fresh (r : Receiver) : (s.setRx r).fresh = s.fresh := rfl
@[simp] theorem State.setRx_pending (r : Receiver) : (s.setRx r).pending = s.pending := rfl

/-! ### `State.setCells` -/

@[simp] theorem State.setCells_straps (c : CellHandler) : (s.setCells c).straps = s.straps := rfl
@[simp] theorem State.setCells_rx (c : CellHandler) : (s.setCells c).rx = s.rx := rfl
@[simp] theorem State.setCells_tx (c : CellHandler) : (s.setCells c).tx = s.tx := rfl
@[simp] theorem State.setCells_sent (c : CellHandler) : (s.setCells c).sent = s.sent := rfl
@[simp] theorem State.setCells_delay (c : CellHandler) : (s.setCells c).delay = s.delay := rfl
@[simp] theorem State.setCells_filterInput (c : CellHandler) : (s.setCells c).filterInput = s.filterInput := rfl
@[simp] theorem State.setCells_slots (c : CellHandler) : (s.setCells c).slots = s.slots := rfl
@[simp] theorem State.setCells_progs (c : CellHandler) : (s.setCells c).progs = s.progs := rfl
@[simp] theorem State.setCells_meters (c : CellHandler) : (s.setCells c).meters = s.meters := rfl
@[simp] theorem State.setCells_heldStarts (c : CellHandler) : (s.setCells c).heldStarts = s.heldStarts := rfl
@[simp] theorem State.setCells_profiles (c : CellHandler) : (s.setCells c).profiles = s.profiles := rfl
@[simp] theorem State.setCells_laws (c : CellHandler) : (s.setCells c).laws = s.laws := rfl
@[simp] theorem State.setCells_lawMark (c : CellHandler) : (s.setCells c).lawMark = s.lawMark := rfl
@[simp] theorem State.setCells_arbiter (c : CellHandler) : (s.setCells c).arbiter = s.arbiter := rfl
@[simp] theorem State.setCells_engine (c : CellHandler) : (s.setCells c).engine = s.engine := rfl
@[simp] theorem State.setCells_cues (c : CellHandler) : (s.setCells c).cues = s.cues := rfl
@[simp] theorem State.setCells_owed (c : CellHandler) : (s.setCells c).owed = s.owed := rfl
@[simp] theorem State.setCells_gains (c : CellHandler) : (s.setCells c).gains = s.gains := rfl
@[simp] theorem State.setCells_cells (c : CellHandler) :
    (s.setCells c).cells = c := rfl
@[simp] theorem State.setCells_notice (c : CellHandler) : (s.setCells c).notice = s.notice := rfl
@[simp] theorem State.setCells_fresh (c : CellHandler) : (s.setCells c).fresh = s.fresh := rfl
@[simp] theorem State.setCells_pending (c : CellHandler) : (s.setCells c).pending = s.pending := rfl

/-! ### `State.setArbiter` -/

@[simp] theorem State.setArbiter_straps (a : Arbiter) : (s.setArbiter a).straps = s.straps := rfl
@[simp] theorem State.setArbiter_rx (a : Arbiter) : (s.setArbiter a).rx = s.rx := rfl
@[simp] theorem State.setArbiter_tx (a : Arbiter) : (s.setArbiter a).tx = s.tx := rfl
@[simp] theorem State.setArbiter_sent (a : Arbiter) : (s.setArbiter a).sent = s.sent := rfl
@[simp] theorem State.setArbiter_delay (a : Arbiter) : (s.setArbiter a).delay = s.delay := rfl
@[simp] theorem State.setArbiter_filterInput (a : Arbiter) : (s.setArbiter a).filterInput = s.filterInput := rfl
@[simp] theorem State.setArbiter_slots (a : Arbiter) : (s.setArbiter a).slots = s.slots := rfl
@[simp] theorem State.setArbiter_progs (a : Arbiter) : (s.setArbiter a).progs = s.progs := rfl
@[simp] theorem State.setArbiter_meters (a : Arbiter) : (s.setArbiter a).meters = s.meters := rfl
@[simp] theorem State.setArbiter_heldStarts (a : Arbiter) : (s.setArbiter a).heldStarts = s.heldStarts := rfl
@[simp] theorem State.setArbiter_profiles (a : Arbiter) : (s.setArbiter a).profiles = s.profiles := rfl
@[simp] theorem State.setArbiter_laws (a : Arbiter) : (s.setArbiter a).laws = s.laws := rfl
@[simp] theorem State.setArbiter_lawMark (a : Arbiter) : (s.setArbiter a).lawMark = s.lawMark := rfl
@[simp] theorem State.setArbiter_arbiter (a : Arbiter) :
    (s.setArbiter a).arbiter = a := rfl
@[simp] theorem State.setArbiter_engine (a : Arbiter) : (s.setArbiter a).engine = s.engine := rfl
@[simp] theorem State.setArbiter_cues (a : Arbiter) : (s.setArbiter a).cues = s.cues := rfl
@[simp] theorem State.setArbiter_owed (a : Arbiter) : (s.setArbiter a).owed = s.owed := rfl
@[simp] theorem State.setArbiter_gains (a : Arbiter) : (s.setArbiter a).gains = s.gains := rfl
@[simp] theorem State.setArbiter_cells (a : Arbiter) : (s.setArbiter a).cells = s.cells := rfl
@[simp] theorem State.setArbiter_notice (a : Arbiter) : (s.setArbiter a).notice = s.notice := rfl
@[simp] theorem State.setArbiter_fresh (a : Arbiter) : (s.setArbiter a).fresh = s.fresh := rfl
@[simp] theorem State.setArbiter_pending (a : Arbiter) : (s.setArbiter a).pending = s.pending := rfl

/-! ### `State.setNotice` -/

@[simp] theorem State.setNotice_straps (n : NoticeUnit) : (s.setNotice n).straps = s.straps := rfl
@[simp] theorem State.setNotice_rx (n : NoticeUnit) : (s.setNotice n).rx = s.rx := rfl
@[simp] theorem State.setNotice_tx (n : NoticeUnit) : (s.setNotice n).tx = s.tx := rfl
@[simp] theorem State.setNotice_sent (n : NoticeUnit) : (s.setNotice n).sent = s.sent := rfl
@[simp] theorem State.setNotice_delay (n : NoticeUnit) : (s.setNotice n).delay = s.delay := rfl
@[simp] theorem State.setNotice_filterInput (n : NoticeUnit) : (s.setNotice n).filterInput = s.filterInput := rfl
@[simp] theorem State.setNotice_slots (n : NoticeUnit) : (s.setNotice n).slots = s.slots := rfl
@[simp] theorem State.setNotice_progs (n : NoticeUnit) : (s.setNotice n).progs = s.progs := rfl
@[simp] theorem State.setNotice_meters (n : NoticeUnit) : (s.setNotice n).meters = s.meters := rfl
@[simp] theorem State.setNotice_heldStarts (n : NoticeUnit) : (s.setNotice n).heldStarts = s.heldStarts := rfl
@[simp] theorem State.setNotice_profiles (n : NoticeUnit) : (s.setNotice n).profiles = s.profiles := rfl
@[simp] theorem State.setNotice_laws (n : NoticeUnit) : (s.setNotice n).laws = s.laws := rfl
@[simp] theorem State.setNotice_lawMark (n : NoticeUnit) : (s.setNotice n).lawMark = s.lawMark := rfl
@[simp] theorem State.setNotice_arbiter (n : NoticeUnit) : (s.setNotice n).arbiter = s.arbiter := rfl
@[simp] theorem State.setNotice_engine (n : NoticeUnit) : (s.setNotice n).engine = s.engine := rfl
@[simp] theorem State.setNotice_cues (n : NoticeUnit) : (s.setNotice n).cues = s.cues := rfl
@[simp] theorem State.setNotice_owed (n : NoticeUnit) : (s.setNotice n).owed = s.owed := rfl
@[simp] theorem State.setNotice_gains (n : NoticeUnit) : (s.setNotice n).gains = s.gains := rfl
@[simp] theorem State.setNotice_cells (n : NoticeUnit) : (s.setNotice n).cells = s.cells := rfl
@[simp] theorem State.setNotice_notice (n : NoticeUnit) :
    (s.setNotice n).notice = n := rfl
@[simp] theorem State.setNotice_fresh (n : NoticeUnit) : (s.setNotice n).fresh = s.fresh := rfl
@[simp] theorem State.setNotice_pending (n : NoticeUnit) : (s.setNotice n).pending = s.pending := rfl

/-! ### `State.setCues` -/

@[simp] theorem State.setCues_straps (l : List Cue) : (s.setCues l).straps = s.straps := rfl
@[simp] theorem State.setCues_rx (l : List Cue) : (s.setCues l).rx = s.rx := rfl
@[simp] theorem State.setCues_tx (l : List Cue) : (s.setCues l).tx = s.tx := rfl
@[simp] theorem State.setCues_sent (l : List Cue) : (s.setCues l).sent = s.sent := rfl
@[simp] theorem State.setCues_delay (l : List Cue) : (s.setCues l).delay = s.delay := rfl
@[simp] theorem State.setCues_filterInput (l : List Cue) : (s.setCues l).filterInput = s.filterInput := rfl
@[simp] theorem State.setCues_slots (l : List Cue) : (s.setCues l).slots = s.slots := rfl
@[simp] theorem State.setCues_progs (l : List Cue) : (s.setCues l).progs = s.progs := rfl
@[simp] theorem State.setCues_meters (l : List Cue) : (s.setCues l).meters = s.meters := rfl
@[simp] theorem State.setCues_heldStarts (l : List Cue) : (s.setCues l).heldStarts = s.heldStarts := rfl
@[simp] theorem State.setCues_profiles (l : List Cue) : (s.setCues l).profiles = s.profiles := rfl
@[simp] theorem State.setCues_laws (l : List Cue) : (s.setCues l).laws = s.laws := rfl
@[simp] theorem State.setCues_lawMark (l : List Cue) : (s.setCues l).lawMark = s.lawMark := rfl
@[simp] theorem State.setCues_arbiter (l : List Cue) : (s.setCues l).arbiter = s.arbiter := rfl
@[simp] theorem State.setCues_engine (l : List Cue) : (s.setCues l).engine = s.engine := rfl
@[simp] theorem State.setCues_cues (l : List Cue) :
    (s.setCues l).cues = l := rfl
@[simp] theorem State.setCues_owed (l : List Cue) : (s.setCues l).owed = s.owed := rfl
@[simp] theorem State.setCues_gains (l : List Cue) : (s.setCues l).gains = s.gains := rfl
@[simp] theorem State.setCues_cells (l : List Cue) : (s.setCues l).cells = s.cells := rfl
@[simp] theorem State.setCues_notice (l : List Cue) : (s.setCues l).notice = s.notice := rfl
@[simp] theorem State.setCues_fresh (l : List Cue) : (s.setCues l).fresh = s.fresh := rfl
@[simp] theorem State.setCues_pending (l : List Cue) : (s.setCues l).pending = s.pending := rfl

/-! ### `State.setProfiles` -/

@[simp] theorem State.setProfiles_straps (v : Vector Profile 8) : (s.setProfiles v).straps = s.straps := rfl
@[simp] theorem State.setProfiles_rx (v : Vector Profile 8) : (s.setProfiles v).rx = s.rx := rfl
@[simp] theorem State.setProfiles_tx (v : Vector Profile 8) : (s.setProfiles v).tx = s.tx := rfl
@[simp] theorem State.setProfiles_sent (v : Vector Profile 8) : (s.setProfiles v).sent = s.sent := rfl
@[simp] theorem State.setProfiles_delay (v : Vector Profile 8) : (s.setProfiles v).delay = s.delay := rfl
@[simp] theorem State.setProfiles_filterInput (v : Vector Profile 8) : (s.setProfiles v).filterInput = s.filterInput := rfl
@[simp] theorem State.setProfiles_slots (v : Vector Profile 8) : (s.setProfiles v).slots = s.slots := rfl
@[simp] theorem State.setProfiles_progs (v : Vector Profile 8) : (s.setProfiles v).progs = s.progs := rfl
@[simp] theorem State.setProfiles_meters (v : Vector Profile 8) : (s.setProfiles v).meters = s.meters := rfl
@[simp] theorem State.setProfiles_heldStarts (v : Vector Profile 8) : (s.setProfiles v).heldStarts = s.heldStarts := rfl
@[simp] theorem State.setProfiles_profiles (v : Vector Profile 8) :
    (s.setProfiles v).profiles = v := rfl
@[simp] theorem State.setProfiles_laws (v : Vector Profile 8) : (s.setProfiles v).laws = s.laws := rfl
@[simp] theorem State.setProfiles_lawMark (v : Vector Profile 8) : (s.setProfiles v).lawMark = s.lawMark := rfl
@[simp] theorem State.setProfiles_arbiter (v : Vector Profile 8) : (s.setProfiles v).arbiter = s.arbiter := rfl
@[simp] theorem State.setProfiles_engine (v : Vector Profile 8) : (s.setProfiles v).engine = s.engine := rfl
@[simp] theorem State.setProfiles_cues (v : Vector Profile 8) : (s.setProfiles v).cues = s.cues := rfl
@[simp] theorem State.setProfiles_owed (v : Vector Profile 8) : (s.setProfiles v).owed = s.owed := rfl
@[simp] theorem State.setProfiles_gains (v : Vector Profile 8) : (s.setProfiles v).gains = s.gains := rfl
@[simp] theorem State.setProfiles_cells (v : Vector Profile 8) : (s.setProfiles v).cells = s.cells := rfl
@[simp] theorem State.setProfiles_notice (v : Vector Profile 8) : (s.setProfiles v).notice = s.notice := rfl
@[simp] theorem State.setProfiles_fresh (v : Vector Profile 8) : (s.setProfiles v).fresh = s.fresh := rfl
@[simp] theorem State.setProfiles_pending (v : Vector Profile 8) : (s.setProfiles v).pending = s.pending := rfl

/-! ### `State.setLaws` -/

@[simp] theorem State.setLaws_straps (v : Vector LawTable 4) : (s.setLaws v).straps = s.straps := rfl
@[simp] theorem State.setLaws_rx (v : Vector LawTable 4) : (s.setLaws v).rx = s.rx := rfl
@[simp] theorem State.setLaws_tx (v : Vector LawTable 4) : (s.setLaws v).tx = s.tx := rfl
@[simp] theorem State.setLaws_sent (v : Vector LawTable 4) : (s.setLaws v).sent = s.sent := rfl
@[simp] theorem State.setLaws_delay (v : Vector LawTable 4) : (s.setLaws v).delay = s.delay := rfl
@[simp] theorem State.setLaws_filterInput (v : Vector LawTable 4) : (s.setLaws v).filterInput = s.filterInput := rfl
@[simp] theorem State.setLaws_slots (v : Vector LawTable 4) : (s.setLaws v).slots = s.slots := rfl
@[simp] theorem State.setLaws_progs (v : Vector LawTable 4) : (s.setLaws v).progs = s.progs := rfl
@[simp] theorem State.setLaws_meters (v : Vector LawTable 4) : (s.setLaws v).meters = s.meters := rfl
@[simp] theorem State.setLaws_heldStarts (v : Vector LawTable 4) : (s.setLaws v).heldStarts = s.heldStarts := rfl
@[simp] theorem State.setLaws_profiles (v : Vector LawTable 4) : (s.setLaws v).profiles = s.profiles := rfl
@[simp] theorem State.setLaws_laws (v : Vector LawTable 4) :
    (s.setLaws v).laws = v := rfl
@[simp] theorem State.setLaws_lawMark (v : Vector LawTable 4) : (s.setLaws v).lawMark = s.lawMark := rfl
@[simp] theorem State.setLaws_arbiter (v : Vector LawTable 4) : (s.setLaws v).arbiter = s.arbiter := rfl
@[simp] theorem State.setLaws_engine (v : Vector LawTable 4) : (s.setLaws v).engine = s.engine := rfl
@[simp] theorem State.setLaws_cues (v : Vector LawTable 4) : (s.setLaws v).cues = s.cues := rfl
@[simp] theorem State.setLaws_owed (v : Vector LawTable 4) : (s.setLaws v).owed = s.owed := rfl
@[simp] theorem State.setLaws_gains (v : Vector LawTable 4) : (s.setLaws v).gains = s.gains := rfl
@[simp] theorem State.setLaws_cells (v : Vector LawTable 4) : (s.setLaws v).cells = s.cells := rfl
@[simp] theorem State.setLaws_notice (v : Vector LawTable 4) : (s.setLaws v).notice = s.notice := rfl
@[simp] theorem State.setLaws_fresh (v : Vector LawTable 4) : (s.setLaws v).fresh = s.fresh := rfl
@[simp] theorem State.setLaws_pending (v : Vector LawTable 4) : (s.setLaws v).pending = s.pending := rfl

/-! ### `State.setGains` -/

@[simp] theorem State.setGains_straps (v : Vector GainRecord 16) : (s.setGains v).straps = s.straps := rfl
@[simp] theorem State.setGains_rx (v : Vector GainRecord 16) : (s.setGains v).rx = s.rx := rfl
@[simp] theorem State.setGains_tx (v : Vector GainRecord 16) : (s.setGains v).tx = s.tx := rfl
@[simp] theorem State.setGains_sent (v : Vector GainRecord 16) : (s.setGains v).sent = s.sent := rfl
@[simp] theorem State.setGains_delay (v : Vector GainRecord 16) : (s.setGains v).delay = s.delay := rfl
@[simp] theorem State.setGains_filterInput (v : Vector GainRecord 16) : (s.setGains v).filterInput = s.filterInput := rfl
@[simp] theorem State.setGains_slots (v : Vector GainRecord 16) : (s.setGains v).slots = s.slots := rfl
@[simp] theorem State.setGains_progs (v : Vector GainRecord 16) : (s.setGains v).progs = s.progs := rfl
@[simp] theorem State.setGains_meters (v : Vector GainRecord 16) : (s.setGains v).meters = s.meters := rfl
@[simp] theorem State.setGains_heldStarts (v : Vector GainRecord 16) : (s.setGains v).heldStarts = s.heldStarts := rfl
@[simp] theorem State.setGains_profiles (v : Vector GainRecord 16) : (s.setGains v).profiles = s.profiles := rfl
@[simp] theorem State.setGains_laws (v : Vector GainRecord 16) : (s.setGains v).laws = s.laws := rfl
@[simp] theorem State.setGains_lawMark (v : Vector GainRecord 16) : (s.setGains v).lawMark = s.lawMark := rfl
@[simp] theorem State.setGains_arbiter (v : Vector GainRecord 16) : (s.setGains v).arbiter = s.arbiter := rfl
@[simp] theorem State.setGains_engine (v : Vector GainRecord 16) : (s.setGains v).engine = s.engine := rfl
@[simp] theorem State.setGains_cues (v : Vector GainRecord 16) : (s.setGains v).cues = s.cues := rfl
@[simp] theorem State.setGains_owed (v : Vector GainRecord 16) : (s.setGains v).owed = s.owed := rfl
@[simp] theorem State.setGains_gains (v : Vector GainRecord 16) :
    (s.setGains v).gains = v := rfl
@[simp] theorem State.setGains_cells (v : Vector GainRecord 16) : (s.setGains v).cells = s.cells := rfl
@[simp] theorem State.setGains_notice (v : Vector GainRecord 16) : (s.setGains v).notice = s.notice := rfl
@[simp] theorem State.setGains_fresh (v : Vector GainRecord 16) : (s.setGains v).fresh = s.fresh := rfl
@[simp] theorem State.setGains_pending (v : Vector GainRecord 16) : (s.setGains v).pending = s.pending := rfl

/-! ### `State.setProgs` -/

@[simp] theorem State.setProgs_straps (v : Vector ProgRecord 16) : (s.setProgs v).straps = s.straps := rfl
@[simp] theorem State.setProgs_rx (v : Vector ProgRecord 16) : (s.setProgs v).rx = s.rx := rfl
@[simp] theorem State.setProgs_tx (v : Vector ProgRecord 16) : (s.setProgs v).tx = s.tx := rfl
@[simp] theorem State.setProgs_sent (v : Vector ProgRecord 16) : (s.setProgs v).sent = s.sent := rfl
@[simp] theorem State.setProgs_delay (v : Vector ProgRecord 16) : (s.setProgs v).delay = s.delay := rfl
@[simp] theorem State.setProgs_filterInput (v : Vector ProgRecord 16) : (s.setProgs v).filterInput = s.filterInput := rfl
@[simp] theorem State.setProgs_slots (v : Vector ProgRecord 16) : (s.setProgs v).slots = s.slots := rfl
@[simp] theorem State.setProgs_progs (v : Vector ProgRecord 16) :
    (s.setProgs v).progs = v := rfl
@[simp] theorem State.setProgs_meters (v : Vector ProgRecord 16) : (s.setProgs v).meters = s.meters := rfl
@[simp] theorem State.setProgs_heldStarts (v : Vector ProgRecord 16) : (s.setProgs v).heldStarts = s.heldStarts := rfl
@[simp] theorem State.setProgs_profiles (v : Vector ProgRecord 16) : (s.setProgs v).profiles = s.profiles := rfl
@[simp] theorem State.setProgs_laws (v : Vector ProgRecord 16) : (s.setProgs v).laws = s.laws := rfl
@[simp] theorem State.setProgs_lawMark (v : Vector ProgRecord 16) : (s.setProgs v).lawMark = s.lawMark := rfl
@[simp] theorem State.setProgs_arbiter (v : Vector ProgRecord 16) : (s.setProgs v).arbiter = s.arbiter := rfl
@[simp] theorem State.setProgs_engine (v : Vector ProgRecord 16) : (s.setProgs v).engine = s.engine := rfl
@[simp] theorem State.setProgs_cues (v : Vector ProgRecord 16) : (s.setProgs v).cues = s.cues := rfl
@[simp] theorem State.setProgs_owed (v : Vector ProgRecord 16) : (s.setProgs v).owed = s.owed := rfl
@[simp] theorem State.setProgs_gains (v : Vector ProgRecord 16) : (s.setProgs v).gains = s.gains := rfl
@[simp] theorem State.setProgs_cells (v : Vector ProgRecord 16) : (s.setProgs v).cells = s.cells := rfl
@[simp] theorem State.setProgs_notice (v : Vector ProgRecord 16) : (s.setProgs v).notice = s.notice := rfl
@[simp] theorem State.setProgs_fresh (v : Vector ProgRecord 16) : (s.setProgs v).fresh = s.fresh := rfl
@[simp] theorem State.setProgs_pending (v : Vector ProgRecord 16) : (s.setProgs v).pending = s.pending := rfl

/-! ### `State.draw` -/

@[simp] theorem State.draw_straps : s.draw.straps = s.straps := rfl
@[simp] theorem State.draw_rx : s.draw.rx = s.rx := rfl
@[simp] theorem State.draw_tx : s.draw.tx = s.tx := rfl
@[simp] theorem State.draw_sent : s.draw.sent = s.sent := rfl
@[simp] theorem State.draw_delay : s.draw.delay = s.delay := rfl
@[simp] theorem State.draw_filterInput : s.draw.filterInput = s.filterInput := rfl
@[simp] theorem State.draw_slots : s.draw.slots = s.slots := rfl
@[simp] theorem State.draw_progs : s.draw.progs = s.progs := rfl
@[simp] theorem State.draw_meters : s.draw.meters = s.meters := rfl
@[simp] theorem State.draw_heldStarts : s.draw.heldStarts = s.heldStarts := rfl
@[simp] theorem State.draw_profiles : s.draw.profiles = s.profiles := rfl
@[simp] theorem State.draw_laws : s.draw.laws = s.laws := rfl
@[simp] theorem State.draw_lawMark : s.draw.lawMark = s.lawMark := rfl
@[simp] theorem State.draw_arbiter : s.draw.arbiter = s.arbiter := rfl
@[simp] theorem State.draw_engine : s.draw.engine = s.engine := rfl
@[simp] theorem State.draw_cues : s.draw.cues = s.cues := rfl
@[simp] theorem State.draw_owed : s.draw.owed = s.owed := rfl
@[simp] theorem State.draw_gains : s.draw.gains = s.gains := rfl
@[simp] theorem State.draw_cells : s.draw.cells = s.cells := rfl
@[simp] theorem State.draw_notice : s.draw.notice = s.notice := rfl
@[simp] theorem State.draw_fresh : s.draw.fresh = s.fresh + 1 := rfl
@[simp] theorem State.draw_pending : s.draw.pending = s.pending := rfl

/-! ### `State.withPending` -/

@[simp] theorem State.withPending_straps (queue : List Instr) : (s.withPending queue).straps = s.straps := rfl
@[simp] theorem State.withPending_rx (queue : List Instr) : (s.withPending queue).rx = s.rx := rfl
@[simp] theorem State.withPending_tx (queue : List Instr) : (s.withPending queue).tx = s.tx := rfl
@[simp] theorem State.withPending_sent (queue : List Instr) : (s.withPending queue).sent = s.sent := rfl
@[simp] theorem State.withPending_delay (queue : List Instr) : (s.withPending queue).delay = s.delay := rfl
@[simp] theorem State.withPending_filterInput (queue : List Instr) : (s.withPending queue).filterInput = s.filterInput := rfl
@[simp] theorem State.withPending_slots (queue : List Instr) : (s.withPending queue).slots = s.slots := rfl
@[simp] theorem State.withPending_progs (queue : List Instr) : (s.withPending queue).progs = s.progs := rfl
@[simp] theorem State.withPending_meters (queue : List Instr) : (s.withPending queue).meters = s.meters := rfl
@[simp] theorem State.withPending_heldStarts (queue : List Instr) : (s.withPending queue).heldStarts = s.heldStarts := rfl
@[simp] theorem State.withPending_profiles (queue : List Instr) : (s.withPending queue).profiles = s.profiles := rfl
@[simp] theorem State.withPending_laws (queue : List Instr) : (s.withPending queue).laws = s.laws := rfl
@[simp] theorem State.withPending_lawMark (queue : List Instr) : (s.withPending queue).lawMark = s.lawMark := rfl
@[simp] theorem State.withPending_arbiter (queue : List Instr) : (s.withPending queue).arbiter = s.arbiter := rfl
@[simp] theorem State.withPending_engine (queue : List Instr) : (s.withPending queue).engine = s.engine := rfl
@[simp] theorem State.withPending_cues (queue : List Instr) : (s.withPending queue).cues = s.cues := rfl
@[simp] theorem State.withPending_owed (queue : List Instr) : (s.withPending queue).owed = s.owed := rfl
@[simp] theorem State.withPending_gains (queue : List Instr) : (s.withPending queue).gains = s.gains := rfl
@[simp] theorem State.withPending_cells (queue : List Instr) : (s.withPending queue).cells = s.cells := rfl
@[simp] theorem State.withPending_notice (queue : List Instr) : (s.withPending queue).notice = s.notice := rfl
@[simp] theorem State.withPending_fresh (queue : List Instr) : (s.withPending queue).fresh = s.fresh := rfl
@[simp] theorem State.withPending_pending (queue : List Instr) :
    (s.withPending queue).pending = queue := rfl

/-! ### `State.claimIf` -/

@[simp] theorem State.claimIf_straps (b : Bool) (c : Condition) : (s.claimIf b c).straps = s.straps := rfl
@[simp] theorem State.claimIf_rx (b : Bool) (c : Condition) : (s.claimIf b c).rx = s.rx := rfl
@[simp] theorem State.claimIf_tx (b : Bool) (c : Condition) : (s.claimIf b c).tx = s.tx := rfl
@[simp] theorem State.claimIf_sent (b : Bool) (c : Condition) : (s.claimIf b c).sent = s.sent := rfl
@[simp] theorem State.claimIf_delay (b : Bool) (c : Condition) : (s.claimIf b c).delay = s.delay := rfl
@[simp] theorem State.claimIf_filterInput (b : Bool) (c : Condition) : (s.claimIf b c).filterInput = s.filterInput := rfl
@[simp] theorem State.claimIf_slots (b : Bool) (c : Condition) : (s.claimIf b c).slots = s.slots := rfl
@[simp] theorem State.claimIf_progs (b : Bool) (c : Condition) : (s.claimIf b c).progs = s.progs := rfl
@[simp] theorem State.claimIf_meters (b : Bool) (c : Condition) : (s.claimIf b c).meters = s.meters := rfl
@[simp] theorem State.claimIf_heldStarts (b : Bool) (c : Condition) : (s.claimIf b c).heldStarts = s.heldStarts := rfl
@[simp] theorem State.claimIf_profiles (b : Bool) (c : Condition) : (s.claimIf b c).profiles = s.profiles := rfl
@[simp] theorem State.claimIf_laws (b : Bool) (c : Condition) : (s.claimIf b c).laws = s.laws := rfl
@[simp] theorem State.claimIf_lawMark (b : Bool) (c : Condition) : (s.claimIf b c).lawMark = s.lawMark := rfl
@[simp] theorem State.claimIf_arbiter (b : Bool) (c : Condition) : (s.claimIf b c).arbiter = s.arbiter := rfl
@[simp] theorem State.claimIf_engine (b : Bool) (c : Condition) : (s.claimIf b c).engine = s.engine := rfl
@[simp] theorem State.claimIf_cues (b : Bool) (c : Condition) : (s.claimIf b c).cues = s.cues := rfl
@[simp] theorem State.claimIf_owed (b : Bool) (c : Condition) : (s.claimIf b c).owed = s.owed := rfl
@[simp] theorem State.claimIf_gains (b : Bool) (c : Condition) : (s.claimIf b c).gains = s.gains := rfl
@[simp] theorem State.claimIf_cells (b : Bool) (c : Condition) : (s.claimIf b c).cells = s.cells := rfl
@[simp] theorem State.claimIf_notice (b : Bool) (c : Condition) :
    (s.claimIf b c).notice = s.notice.claimIf b c := rfl
@[simp] theorem State.claimIf_fresh (b : Bool) (c : Condition) : (s.claimIf b c).fresh = s.fresh := rfl
@[simp] theorem State.claimIf_pending (b : Bool) (c : Condition) : (s.claimIf b c).pending = s.pending := rfl

/-! ### `State.claim` -/

@[simp] theorem State.claim_straps (c : Condition) : (s.claim c).straps = s.straps := rfl
@[simp] theorem State.claim_rx (c : Condition) : (s.claim c).rx = s.rx := rfl
@[simp] theorem State.claim_tx (c : Condition) : (s.claim c).tx = s.tx := rfl
@[simp] theorem State.claim_sent (c : Condition) : (s.claim c).sent = s.sent := rfl
@[simp] theorem State.claim_delay (c : Condition) : (s.claim c).delay = s.delay := rfl
@[simp] theorem State.claim_filterInput (c : Condition) : (s.claim c).filterInput = s.filterInput := rfl
@[simp] theorem State.claim_slots (c : Condition) : (s.claim c).slots = s.slots := rfl
@[simp] theorem State.claim_progs (c : Condition) : (s.claim c).progs = s.progs := rfl
@[simp] theorem State.claim_meters (c : Condition) : (s.claim c).meters = s.meters := rfl
@[simp] theorem State.claim_heldStarts (c : Condition) : (s.claim c).heldStarts = s.heldStarts := rfl
@[simp] theorem State.claim_profiles (c : Condition) : (s.claim c).profiles = s.profiles := rfl
@[simp] theorem State.claim_laws (c : Condition) : (s.claim c).laws = s.laws := rfl
@[simp] theorem State.claim_lawMark (c : Condition) : (s.claim c).lawMark = s.lawMark := rfl
@[simp] theorem State.claim_arbiter (c : Condition) : (s.claim c).arbiter = s.arbiter := rfl
@[simp] theorem State.claim_engine (c : Condition) : (s.claim c).engine = s.engine := rfl
@[simp] theorem State.claim_cues (c : Condition) : (s.claim c).cues = s.cues := rfl
@[simp] theorem State.claim_owed (c : Condition) : (s.claim c).owed = s.owed := rfl
@[simp] theorem State.claim_gains (c : Condition) : (s.claim c).gains = s.gains := rfl
@[simp] theorem State.claim_cells (c : Condition) : (s.claim c).cells = s.cells := rfl
@[simp] theorem State.claim_notice (c : Condition) :
    (s.claim c).notice = s.notice.claim c := rfl
@[simp] theorem State.claim_fresh (c : Condition) : (s.claim c).fresh = s.fresh := rfl
@[simp] theorem State.claim_pending (c : Condition) : (s.claim c).pending = s.pending := rfl

/-! ### `State.requestRetune` -/

@[simp] theorem State.requestRetune_straps (p : Prog) : (s.requestRetune p).straps = s.straps := rfl
@[simp] theorem State.requestRetune_rx (p : Prog) : (s.requestRetune p).rx = s.rx := rfl
@[simp] theorem State.requestRetune_tx (p : Prog) : (s.requestRetune p).tx = s.tx := rfl
@[simp] theorem State.requestRetune_sent (p : Prog) : (s.requestRetune p).sent = s.sent := rfl
@[simp] theorem State.requestRetune_delay (p : Prog) : (s.requestRetune p).delay = s.delay := rfl
@[simp] theorem State.requestRetune_filterInput (p : Prog) : (s.requestRetune p).filterInput = s.filterInput := rfl
@[simp] theorem State.requestRetune_slots (p : Prog) : (s.requestRetune p).slots = s.slots := rfl
@[simp] theorem State.requestRetune_progs (p : Prog) : (s.requestRetune p).progs = s.progs := rfl
@[simp] theorem State.requestRetune_meters (p : Prog) : (s.requestRetune p).meters = s.meters := rfl
@[simp] theorem State.requestRetune_heldStarts (p : Prog) : (s.requestRetune p).heldStarts = s.heldStarts := rfl
@[simp] theorem State.requestRetune_profiles (p : Prog) : (s.requestRetune p).profiles = s.profiles := rfl
@[simp] theorem State.requestRetune_laws (p : Prog) : (s.requestRetune p).laws = s.laws := rfl
@[simp] theorem State.requestRetune_lawMark (p : Prog) : (s.requestRetune p).lawMark = s.lawMark := rfl
@[simp] theorem State.requestRetune_arbiter (p : Prog) :
    (s.requestRetune p).arbiter = { s.arbiter with retune := if s.arbiter.retuneOn && s.tracking p then ProgSet.insert s.arbiter.retune p else s.arbiter.retune } := rfl
@[simp] theorem State.requestRetune_engine (p : Prog) : (s.requestRetune p).engine = s.engine := rfl
@[simp] theorem State.requestRetune_cues (p : Prog) : (s.requestRetune p).cues = s.cues := rfl
@[simp] theorem State.requestRetune_owed (p : Prog) : (s.requestRetune p).owed = s.owed := rfl
@[simp] theorem State.requestRetune_gains (p : Prog) : (s.requestRetune p).gains = s.gains := rfl
@[simp] theorem State.requestRetune_cells (p : Prog) : (s.requestRetune p).cells = s.cells := rfl
@[simp] theorem State.requestRetune_notice (p : Prog) : (s.requestRetune p).notice = s.notice := rfl
@[simp] theorem State.requestRetune_fresh (p : Prog) : (s.requestRetune p).fresh = s.fresh := rfl
@[simp] theorem State.requestRetune_pending (p : Prog) : (s.requestRetune p).pending = s.pending := rfl

/-! ### `State.requestRescale` -/

@[simp] theorem State.requestRescale_straps (p : Prog) : (s.requestRescale p).straps = s.straps := rfl
@[simp] theorem State.requestRescale_rx (p : Prog) : (s.requestRescale p).rx = s.rx := rfl
@[simp] theorem State.requestRescale_tx (p : Prog) : (s.requestRescale p).tx = s.tx := rfl
@[simp] theorem State.requestRescale_sent (p : Prog) : (s.requestRescale p).sent = s.sent := rfl
@[simp] theorem State.requestRescale_delay (p : Prog) : (s.requestRescale p).delay = s.delay := rfl
@[simp] theorem State.requestRescale_filterInput (p : Prog) : (s.requestRescale p).filterInput = s.filterInput := rfl
@[simp] theorem State.requestRescale_slots (p : Prog) : (s.requestRescale p).slots = s.slots := rfl
@[simp] theorem State.requestRescale_progs (p : Prog) : (s.requestRescale p).progs = s.progs := rfl
@[simp] theorem State.requestRescale_meters (p : Prog) : (s.requestRescale p).meters = s.meters := rfl
@[simp] theorem State.requestRescale_heldStarts (p : Prog) : (s.requestRescale p).heldStarts = s.heldStarts := rfl
@[simp] theorem State.requestRescale_profiles (p : Prog) : (s.requestRescale p).profiles = s.profiles := rfl
@[simp] theorem State.requestRescale_laws (p : Prog) : (s.requestRescale p).laws = s.laws := rfl
@[simp] theorem State.requestRescale_lawMark (p : Prog) : (s.requestRescale p).lawMark = s.lawMark := rfl
@[simp] theorem State.requestRescale_arbiter (p : Prog) :
    (s.requestRescale p).arbiter = { s.arbiter with rescale := if s.arbiter.rescaleOn && s.tracking p then ProgSet.insert s.arbiter.rescale p else s.arbiter.rescale } := rfl
@[simp] theorem State.requestRescale_engine (p : Prog) : (s.requestRescale p).engine = s.engine := rfl
@[simp] theorem State.requestRescale_cues (p : Prog) : (s.requestRescale p).cues = s.cues := rfl
@[simp] theorem State.requestRescale_owed (p : Prog) : (s.requestRescale p).owed = s.owed := rfl
@[simp] theorem State.requestRescale_gains (p : Prog) : (s.requestRescale p).gains = s.gains := rfl
@[simp] theorem State.requestRescale_cells (p : Prog) : (s.requestRescale p).cells = s.cells := rfl
@[simp] theorem State.requestRescale_notice (p : Prog) : (s.requestRescale p).notice = s.notice := rfl
@[simp] theorem State.requestRescale_fresh (p : Prog) : (s.requestRescale p).fresh = s.fresh := rfl
@[simp] theorem State.requestRescale_pending (p : Prog) : (s.requestRescale p).pending = s.pending := rfl

/-! ### `State.setProg` -/

@[simp] theorem State.setProg_straps (p : Prog) (r : ProgRecord) : (s.setProg p r).straps = s.straps := rfl
@[simp] theorem State.setProg_rx (p : Prog) (r : ProgRecord) : (s.setProg p r).rx = s.rx := rfl
@[simp] theorem State.setProg_tx (p : Prog) (r : ProgRecord) : (s.setProg p r).tx = s.tx := rfl
@[simp] theorem State.setProg_sent (p : Prog) (r : ProgRecord) : (s.setProg p r).sent = s.sent := rfl
@[simp] theorem State.setProg_delay (p : Prog) (r : ProgRecord) : (s.setProg p r).delay = s.delay := rfl
@[simp] theorem State.setProg_filterInput (p : Prog) (r : ProgRecord) : (s.setProg p r).filterInput = s.filterInput := rfl
@[simp] theorem State.setProg_slots (p : Prog) (r : ProgRecord) : (s.setProg p r).slots = s.slots := rfl
@[simp] theorem State.setProg_progs (p : Prog) (r : ProgRecord) :
    (s.setProg p r).progs = s.progs.set p r := rfl
@[simp] theorem State.setProg_meters (p : Prog) (r : ProgRecord) : (s.setProg p r).meters = s.meters := rfl
@[simp] theorem State.setProg_heldStarts (p : Prog) (r : ProgRecord) : (s.setProg p r).heldStarts = s.heldStarts := rfl
@[simp] theorem State.setProg_profiles (p : Prog) (r : ProgRecord) : (s.setProg p r).profiles = s.profiles := rfl
@[simp] theorem State.setProg_laws (p : Prog) (r : ProgRecord) : (s.setProg p r).laws = s.laws := rfl
@[simp] theorem State.setProg_lawMark (p : Prog) (r : ProgRecord) : (s.setProg p r).lawMark = s.lawMark := rfl
@[simp] theorem State.setProg_arbiter (p : Prog) (r : ProgRecord) : (s.setProg p r).arbiter = s.arbiter := rfl
@[simp] theorem State.setProg_engine (p : Prog) (r : ProgRecord) : (s.setProg p r).engine = s.engine := rfl
@[simp] theorem State.setProg_cues (p : Prog) (r : ProgRecord) : (s.setProg p r).cues = s.cues := rfl
@[simp] theorem State.setProg_owed (p : Prog) (r : ProgRecord) : (s.setProg p r).owed = s.owed := rfl
@[simp] theorem State.setProg_gains (p : Prog) (r : ProgRecord) : (s.setProg p r).gains = s.gains := rfl
@[simp] theorem State.setProg_cells (p : Prog) (r : ProgRecord) : (s.setProg p r).cells = s.cells := rfl
@[simp] theorem State.setProg_notice (p : Prog) (r : ProgRecord) : (s.setProg p r).notice = s.notice := rfl
@[simp] theorem State.setProg_fresh (p : Prog) (r : ProgRecord) : (s.setProg p r).fresh = s.fresh := rfl
@[simp] theorem State.setProg_pending (p : Prog) (r : ProgRecord) : (s.setProg p r).pending = s.pending := rfl

/-! ### `State.setMeter` -/

@[simp] theorem State.setMeter_straps (p : Prog) (m : MeterRecord) : (s.setMeter p m).straps = s.straps := rfl
@[simp] theorem State.setMeter_rx (p : Prog) (m : MeterRecord) : (s.setMeter p m).rx = s.rx := rfl
@[simp] theorem State.setMeter_tx (p : Prog) (m : MeterRecord) : (s.setMeter p m).tx = s.tx := rfl
@[simp] theorem State.setMeter_sent (p : Prog) (m : MeterRecord) : (s.setMeter p m).sent = s.sent := rfl
@[simp] theorem State.setMeter_delay (p : Prog) (m : MeterRecord) : (s.setMeter p m).delay = s.delay := rfl
@[simp] theorem State.setMeter_filterInput (p : Prog) (m : MeterRecord) : (s.setMeter p m).filterInput = s.filterInput := rfl
@[simp] theorem State.setMeter_slots (p : Prog) (m : MeterRecord) : (s.setMeter p m).slots = s.slots := rfl
@[simp] theorem State.setMeter_progs (p : Prog) (m : MeterRecord) : (s.setMeter p m).progs = s.progs := rfl
@[simp] theorem State.setMeter_meters (p : Prog) (m : MeterRecord) :
    (s.setMeter p m).meters = s.meters.set p m := rfl
@[simp] theorem State.setMeter_heldStarts (p : Prog) (m : MeterRecord) : (s.setMeter p m).heldStarts = s.heldStarts := rfl
@[simp] theorem State.setMeter_profiles (p : Prog) (m : MeterRecord) : (s.setMeter p m).profiles = s.profiles := rfl
@[simp] theorem State.setMeter_laws (p : Prog) (m : MeterRecord) : (s.setMeter p m).laws = s.laws := rfl
@[simp] theorem State.setMeter_lawMark (p : Prog) (m : MeterRecord) : (s.setMeter p m).lawMark = s.lawMark := rfl
@[simp] theorem State.setMeter_arbiter (p : Prog) (m : MeterRecord) : (s.setMeter p m).arbiter = s.arbiter := rfl
@[simp] theorem State.setMeter_engine (p : Prog) (m : MeterRecord) : (s.setMeter p m).engine = s.engine := rfl
@[simp] theorem State.setMeter_cues (p : Prog) (m : MeterRecord) : (s.setMeter p m).cues = s.cues := rfl
@[simp] theorem State.setMeter_owed (p : Prog) (m : MeterRecord) : (s.setMeter p m).owed = s.owed := rfl
@[simp] theorem State.setMeter_gains (p : Prog) (m : MeterRecord) : (s.setMeter p m).gains = s.gains := rfl
@[simp] theorem State.setMeter_cells (p : Prog) (m : MeterRecord) : (s.setMeter p m).cells = s.cells := rfl
@[simp] theorem State.setMeter_notice (p : Prog) (m : MeterRecord) : (s.setMeter p m).notice = s.notice := rfl
@[simp] theorem State.setMeter_fresh (p : Prog) (m : MeterRecord) : (s.setMeter p m).fresh = s.fresh := rfl
@[simp] theorem State.setMeter_pending (p : Prog) (m : MeterRecord) : (s.setMeter p m).pending = s.pending := rfl

/-! ### `State.setGain` -/

@[simp] theorem State.setGain_straps (p : Prog) (g : GainRecord) : (s.setGain p g).straps = s.straps := rfl
@[simp] theorem State.setGain_rx (p : Prog) (g : GainRecord) : (s.setGain p g).rx = s.rx := rfl
@[simp] theorem State.setGain_tx (p : Prog) (g : GainRecord) : (s.setGain p g).tx = s.tx := rfl
@[simp] theorem State.setGain_sent (p : Prog) (g : GainRecord) : (s.setGain p g).sent = s.sent := rfl
@[simp] theorem State.setGain_delay (p : Prog) (g : GainRecord) : (s.setGain p g).delay = s.delay := rfl
@[simp] theorem State.setGain_filterInput (p : Prog) (g : GainRecord) : (s.setGain p g).filterInput = s.filterInput := rfl
@[simp] theorem State.setGain_slots (p : Prog) (g : GainRecord) : (s.setGain p g).slots = s.slots := rfl
@[simp] theorem State.setGain_progs (p : Prog) (g : GainRecord) : (s.setGain p g).progs = s.progs := rfl
@[simp] theorem State.setGain_meters (p : Prog) (g : GainRecord) : (s.setGain p g).meters = s.meters := rfl
@[simp] theorem State.setGain_heldStarts (p : Prog) (g : GainRecord) : (s.setGain p g).heldStarts = s.heldStarts := rfl
@[simp] theorem State.setGain_profiles (p : Prog) (g : GainRecord) : (s.setGain p g).profiles = s.profiles := rfl
@[simp] theorem State.setGain_laws (p : Prog) (g : GainRecord) : (s.setGain p g).laws = s.laws := rfl
@[simp] theorem State.setGain_lawMark (p : Prog) (g : GainRecord) : (s.setGain p g).lawMark = s.lawMark := rfl
@[simp] theorem State.setGain_arbiter (p : Prog) (g : GainRecord) : (s.setGain p g).arbiter = s.arbiter := rfl
@[simp] theorem State.setGain_engine (p : Prog) (g : GainRecord) : (s.setGain p g).engine = s.engine := rfl
@[simp] theorem State.setGain_cues (p : Prog) (g : GainRecord) : (s.setGain p g).cues = s.cues := rfl
@[simp] theorem State.setGain_owed (p : Prog) (g : GainRecord) : (s.setGain p g).owed = s.owed := rfl
@[simp] theorem State.setGain_gains (p : Prog) (g : GainRecord) :
    (s.setGain p g).gains = s.gains.set p g := rfl
@[simp] theorem State.setGain_cells (p : Prog) (g : GainRecord) : (s.setGain p g).cells = s.cells := rfl
@[simp] theorem State.setGain_notice (p : Prog) (g : GainRecord) : (s.setGain p g).notice = s.notice := rfl
@[simp] theorem State.setGain_fresh (p : Prog) (g : GainRecord) : (s.setGain p g).fresh = s.fresh := rfl
@[simp] theorem State.setGain_pending (p : Prog) (g : GainRecord) : (s.setGain p g).pending = s.pending := rfl

/-! ### `State.moveTo` -/

@[simp] theorem State.moveTo_straps (p : Prog) (st : ProgState) : (s.moveTo p st).straps = s.straps := rfl
@[simp] theorem State.moveTo_rx (p : Prog) (st : ProgState) : (s.moveTo p st).rx = s.rx := rfl
@[simp] theorem State.moveTo_tx (p : Prog) (st : ProgState) : (s.moveTo p st).tx = s.tx := rfl
@[simp] theorem State.moveTo_sent (p : Prog) (st : ProgState) : (s.moveTo p st).sent = s.sent := rfl
@[simp] theorem State.moveTo_delay (p : Prog) (st : ProgState) : (s.moveTo p st).delay = s.delay := rfl
@[simp] theorem State.moveTo_filterInput (p : Prog) (st : ProgState) : (s.moveTo p st).filterInput = s.filterInput := rfl
@[simp] theorem State.moveTo_slots (p : Prog) (st : ProgState) : (s.moveTo p st).slots = s.slots := rfl
@[simp] theorem State.moveTo_progs (p : Prog) (st : ProgState) :
    (s.moveTo p st).progs = s.progs.set p (s.progs[p].toState st) := rfl
@[simp] theorem State.moveTo_meters (p : Prog) (st : ProgState) : (s.moveTo p st).meters = s.meters := rfl
@[simp] theorem State.moveTo_heldStarts (p : Prog) (st : ProgState) : (s.moveTo p st).heldStarts = s.heldStarts := rfl
@[simp] theorem State.moveTo_profiles (p : Prog) (st : ProgState) : (s.moveTo p st).profiles = s.profiles := rfl
@[simp] theorem State.moveTo_laws (p : Prog) (st : ProgState) : (s.moveTo p st).laws = s.laws := rfl
@[simp] theorem State.moveTo_lawMark (p : Prog) (st : ProgState) : (s.moveTo p st).lawMark = s.lawMark := rfl
@[simp] theorem State.moveTo_arbiter (p : Prog) (st : ProgState) :
    (s.moveTo p st).arbiter = if s.progs[p].state = .tracking ∧ st ≠ .tracking then s.arbiter.leave p else s.arbiter := rfl
@[simp] theorem State.moveTo_engine (p : Prog) (st : ProgState) : (s.moveTo p st).engine = s.engine := rfl
@[simp] theorem State.moveTo_cues (p : Prog) (st : ProgState) : (s.moveTo p st).cues = s.cues := rfl
@[simp] theorem State.moveTo_owed (p : Prog) (st : ProgState) : (s.moveTo p st).owed = s.owed := rfl
@[simp] theorem State.moveTo_gains (p : Prog) (st : ProgState) : (s.moveTo p st).gains = s.gains := rfl
@[simp] theorem State.moveTo_cells (p : Prog) (st : ProgState) : (s.moveTo p st).cells = s.cells := rfl
@[simp] theorem State.moveTo_notice (p : Prog) (st : ProgState) : (s.moveTo p st).notice = s.notice := rfl
@[simp] theorem State.moveTo_fresh (p : Prog) (st : ProgState) : (s.moveTo p st).fresh = s.fresh := rfl
@[simp] theorem State.moveTo_pending (p : Prog) (st : ProgState) : (s.moveTo p st).pending = s.pending := rfl

/-! ### `State.setTarget` -/

@[simp] theorem State.setTarget_straps (p : Prog) (g : Int) : (s.setTarget p g).straps = s.straps := rfl
@[simp] theorem State.setTarget_rx (p : Prog) (g : Int) : (s.setTarget p g).rx = s.rx := rfl
@[simp] theorem State.setTarget_tx (p : Prog) (g : Int) : (s.setTarget p g).tx = s.tx := rfl
@[simp] theorem State.setTarget_sent (p : Prog) (g : Int) : (s.setTarget p g).sent = s.sent := rfl
@[simp] theorem State.setTarget_delay (p : Prog) (g : Int) : (s.setTarget p g).delay = s.delay := rfl
@[simp] theorem State.setTarget_filterInput (p : Prog) (g : Int) : (s.setTarget p g).filterInput = s.filterInput := rfl
@[simp] theorem State.setTarget_slots (p : Prog) (g : Int) : (s.setTarget p g).slots = s.slots := rfl
@[simp] theorem State.setTarget_progs (p : Prog) (g : Int) : (s.setTarget p g).progs = s.progs := rfl
@[simp] theorem State.setTarget_meters (p : Prog) (g : Int) : (s.setTarget p g).meters = s.meters := rfl
@[simp] theorem State.setTarget_heldStarts (p : Prog) (g : Int) : (s.setTarget p g).heldStarts = s.heldStarts := rfl
@[simp] theorem State.setTarget_profiles (p : Prog) (g : Int) : (s.setTarget p g).profiles = s.profiles := rfl
@[simp] theorem State.setTarget_laws (p : Prog) (g : Int) : (s.setTarget p g).laws = s.laws := rfl
@[simp] theorem State.setTarget_lawMark (p : Prog) (g : Int) : (s.setTarget p g).lawMark = s.lawMark := rfl
@[simp] theorem State.setTarget_arbiter (p : Prog) (g : Int) : (s.setTarget p g).arbiter = s.arbiter := rfl
@[simp] theorem State.setTarget_engine (p : Prog) (g : Int) : (s.setTarget p g).engine = s.engine := rfl
@[simp] theorem State.setTarget_cues (p : Prog) (g : Int) : (s.setTarget p g).cues = s.cues := rfl
@[simp] theorem State.setTarget_owed (p : Prog) (g : Int) : (s.setTarget p g).owed = s.owed := rfl
@[simp] theorem State.setTarget_gains (p : Prog) (g : Int) :
    (s.setTarget p g).gains = if s.opened p then s.gains.set p { s.gains[p] with target := clampGain (s.activeProfile p).gainMin (s.activeProfile p).gainMax g } else s.gains := rfl
@[simp] theorem State.setTarget_cells (p : Prog) (g : Int) : (s.setTarget p g).cells = s.cells := rfl
@[simp] theorem State.setTarget_notice (p : Prog) (g : Int) : (s.setTarget p g).notice = s.notice := rfl
@[simp] theorem State.setTarget_fresh (p : Prog) (g : Int) : (s.setTarget p g).fresh = s.fresh := rfl
@[simp] theorem State.setTarget_pending (p : Prog) (g : Int) : (s.setTarget p g).pending = s.pending := rfl

/-! ### `State.setProfile` -/

@[simp] theorem State.setProfile_straps (p : Prog) (q : ProfileNo) : (s.setProfile p q).straps = s.straps := rfl
@[simp] theorem State.setProfile_rx (p : Prog) (q : ProfileNo) : (s.setProfile p q).rx = s.rx := rfl
@[simp] theorem State.setProfile_tx (p : Prog) (q : ProfileNo) : (s.setProfile p q).tx = s.tx := rfl
@[simp] theorem State.setProfile_sent (p : Prog) (q : ProfileNo) : (s.setProfile p q).sent = s.sent := rfl
@[simp] theorem State.setProfile_delay (p : Prog) (q : ProfileNo) : (s.setProfile p q).delay = s.delay := rfl
@[simp] theorem State.setProfile_filterInput (p : Prog) (q : ProfileNo) : (s.setProfile p q).filterInput = s.filterInput := rfl
@[simp] theorem State.setProfile_slots (p : Prog) (q : ProfileNo) : (s.setProfile p q).slots = s.slots := rfl
@[simp] theorem State.setProfile_progs (p : Prog) (q : ProfileNo) :
    (s.setProfile p q).progs = s.progs.set p { s.progs[p] with profile := q, generation := s.progs[p].generation + 1 } := rfl
@[simp] theorem State.setProfile_meters (p : Prog) (q : ProfileNo) : (s.setProfile p q).meters = s.meters := rfl
@[simp] theorem State.setProfile_heldStarts (p : Prog) (q : ProfileNo) : (s.setProfile p q).heldStarts = s.heldStarts := rfl
@[simp] theorem State.setProfile_profiles (p : Prog) (q : ProfileNo) : (s.setProfile p q).profiles = s.profiles := rfl
@[simp] theorem State.setProfile_laws (p : Prog) (q : ProfileNo) : (s.setProfile p q).laws = s.laws := rfl
@[simp] theorem State.setProfile_lawMark (p : Prog) (q : ProfileNo) : (s.setProfile p q).lawMark = s.lawMark := rfl
@[simp] theorem State.setProfile_arbiter (p : Prog) (q : ProfileNo) : (s.setProfile p q).arbiter = s.arbiter := rfl
@[simp] theorem State.setProfile_engine (p : Prog) (q : ProfileNo) : (s.setProfile p q).engine = s.engine := rfl
@[simp] theorem State.setProfile_cues (p : Prog) (q : ProfileNo) : (s.setProfile p q).cues = s.cues := rfl
@[simp] theorem State.setProfile_owed (p : Prog) (q : ProfileNo) : (s.setProfile p q).owed = s.owed := rfl
@[simp] theorem State.setProfile_cells (p : Prog) (q : ProfileNo) : (s.setProfile p q).cells = s.cells := rfl
@[simp] theorem State.setProfile_notice (p : Prog) (q : ProfileNo) : (s.setProfile p q).notice = s.notice := rfl
@[simp] theorem State.setProfile_fresh (p : Prog) (q : ProfileNo) : (s.setProfile p q).fresh = s.fresh := rfl
@[simp] theorem State.setProfile_pending (p : Prog) (q : ProfileNo) : (s.setProfile p q).pending = s.pending := rfl

/-! ### `State.skipCue` -/

@[simp] theorem State.skipCue_straps (p : Prog) : (s.skipCue p).straps = s.straps := rfl
@[simp] theorem State.skipCue_rx (p : Prog) : (s.skipCue p).rx = s.rx := rfl
@[simp] theorem State.skipCue_tx (p : Prog) : (s.skipCue p).tx = s.tx := rfl
@[simp] theorem State.skipCue_sent (p : Prog) : (s.skipCue p).sent = s.sent := rfl
@[simp] theorem State.skipCue_delay (p : Prog) : (s.skipCue p).delay = s.delay := rfl
@[simp] theorem State.skipCue_filterInput (p : Prog) : (s.skipCue p).filterInput = s.filterInput := rfl
@[simp] theorem State.skipCue_slots (p : Prog) : (s.skipCue p).slots = s.slots := rfl
@[simp] theorem State.skipCue_progs (p : Prog) :
    (s.skipCue p).progs = s.progs.set p { s.progs[p] with skipped := min 255 (s.progs[p].skipped + 1) } := rfl
@[simp] theorem State.skipCue_meters (p : Prog) : (s.skipCue p).meters = s.meters := rfl
@[simp] theorem State.skipCue_heldStarts (p : Prog) : (s.skipCue p).heldStarts = s.heldStarts := rfl
@[simp] theorem State.skipCue_profiles (p : Prog) : (s.skipCue p).profiles = s.profiles := rfl
@[simp] theorem State.skipCue_laws (p : Prog) : (s.skipCue p).laws = s.laws := rfl
@[simp] theorem State.skipCue_lawMark (p : Prog) : (s.skipCue p).lawMark = s.lawMark := rfl
@[simp] theorem State.skipCue_arbiter (p : Prog) : (s.skipCue p).arbiter = s.arbiter := rfl
@[simp] theorem State.skipCue_engine (p : Prog) : (s.skipCue p).engine = s.engine := rfl
@[simp] theorem State.skipCue_cues (p : Prog) : (s.skipCue p).cues = s.cues := rfl
@[simp] theorem State.skipCue_owed (p : Prog) : (s.skipCue p).owed = s.owed := rfl
@[simp] theorem State.skipCue_gains (p : Prog) : (s.skipCue p).gains = s.gains := rfl
@[simp] theorem State.skipCue_cells (p : Prog) : (s.skipCue p).cells = s.cells := rfl
@[simp] theorem State.skipCue_notice (p : Prog) :
    (s.skipCue p).notice = s.notice.claim .cueSkipped := rfl
@[simp] theorem State.skipCue_fresh (p : Prog) : (s.skipCue p).fresh = s.fresh := rfl
@[simp] theorem State.skipCue_pending (p : Prog) : (s.skipCue p).pending = s.pending := rfl

/-! ### `State.idleEngine` -/

@[simp] theorem State.idleEngine_straps : s.idleEngine.straps = s.straps := rfl
@[simp] theorem State.idleEngine_rx : s.idleEngine.rx = s.rx := rfl
@[simp] theorem State.idleEngine_tx : s.idleEngine.tx = s.tx := rfl
@[simp] theorem State.idleEngine_sent : s.idleEngine.sent = s.sent := rfl
@[simp] theorem State.idleEngine_delay : s.idleEngine.delay = s.delay := rfl
@[simp] theorem State.idleEngine_filterInput : s.idleEngine.filterInput = s.filterInput := rfl
@[simp] theorem State.idleEngine_slots : s.idleEngine.slots = s.slots := rfl
@[simp] theorem State.idleEngine_progs : s.idleEngine.progs = s.progs := rfl
@[simp] theorem State.idleEngine_meters : s.idleEngine.meters = s.meters := rfl
@[simp] theorem State.idleEngine_heldStarts : s.idleEngine.heldStarts = s.heldStarts := rfl
@[simp] theorem State.idleEngine_profiles : s.idleEngine.profiles = s.profiles := rfl
@[simp] theorem State.idleEngine_laws : s.idleEngine.laws = s.laws := rfl
@[simp] theorem State.idleEngine_lawMark : s.idleEngine.lawMark = none := rfl
@[simp] theorem State.idleEngine_arbiter : s.idleEngine.arbiter = s.arbiter := rfl
@[simp] theorem State.idleEngine_engine : s.idleEngine.engine = none := rfl
@[simp] theorem State.idleEngine_cues : s.idleEngine.cues = s.cues := rfl
@[simp] theorem State.idleEngine_owed : s.idleEngine.owed = s.owed := rfl
@[simp] theorem State.idleEngine_gains : s.idleEngine.gains = s.gains := rfl
@[simp] theorem State.idleEngine_cells : s.idleEngine.cells = s.cells := rfl
@[simp] theorem State.idleEngine_notice : s.idleEngine.notice = s.notice := rfl
@[simp] theorem State.idleEngine_fresh : s.idleEngine.fresh = s.fresh := rfl
@[simp] theorem State.idleEngine_pending : s.idleEngine.pending = s.pending := rfl

/-! ### `State.fill` -/

@[simp] theorem State.fill_straps (r : Reply) (st : Status) (payload : List Byte) : (s.fill r st payload).straps = s.straps := rfl
@[simp] theorem State.fill_rx (r : Reply) (st : Status) (payload : List Byte) : (s.fill r st payload).rx = s.rx := rfl
@[simp] theorem State.fill_tx (r : Reply) (st : Status) (payload : List Byte) : (s.fill r st payload).tx = s.tx := rfl
@[simp] theorem State.fill_sent (r : Reply) (st : Status) (payload : List Byte) : (s.fill r st payload).sent = s.sent := rfl
@[simp] theorem State.fill_delay (r : Reply) (st : Status) (payload : List Byte) : (s.fill r st payload).delay = s.delay := rfl
@[simp] theorem State.fill_filterInput (r : Reply) (st : Status) (payload : List Byte) : (s.fill r st payload).filterInput = s.filterInput := rfl
@[simp] theorem State.fill_slots (r : Reply) (st : Status) (payload : List Byte) : (s.fill r st payload).slots = s.slots := rfl
@[simp] theorem State.fill_progs (r : Reply) (st : Status) (payload : List Byte) : (s.fill r st payload).progs = s.progs := rfl
@[simp] theorem State.fill_meters (r : Reply) (st : Status) (payload : List Byte) : (s.fill r st payload).meters = s.meters := rfl
@[simp] theorem State.fill_heldStarts (r : Reply) (st : Status) (payload : List Byte) : (s.fill r st payload).heldStarts = s.heldStarts := rfl
@[simp] theorem State.fill_profiles (r : Reply) (st : Status) (payload : List Byte) : (s.fill r st payload).profiles = s.profiles := rfl
@[simp] theorem State.fill_laws (r : Reply) (st : Status) (payload : List Byte) : (s.fill r st payload).laws = s.laws := rfl
@[simp] theorem State.fill_lawMark (r : Reply) (st : Status) (payload : List Byte) : (s.fill r st payload).lawMark = s.lawMark := rfl
@[simp] theorem State.fill_arbiter (r : Reply) (st : Status) (payload : List Byte) : (s.fill r st payload).arbiter = s.arbiter := rfl
@[simp] theorem State.fill_engine (r : Reply) (st : Status) (payload : List Byte) : (s.fill r st payload).engine = s.engine := rfl
@[simp] theorem State.fill_cues (r : Reply) (st : Status) (payload : List Byte) : (s.fill r st payload).cues = s.cues := rfl
@[simp] theorem State.fill_owed (r : Reply) (st : Status) (payload : List Byte) : (s.fill r st payload).owed = s.owed := rfl
@[simp] theorem State.fill_gains (r : Reply) (st : Status) (payload : List Byte) : (s.fill r st payload).gains = s.gains := rfl
@[simp] theorem State.fill_cells (r : Reply) (st : Status) (payload : List Byte) :
    (s.fill r st payload).cells = { s.cells with responses := s.cells.responses ++ [r.made st r.count payload] } := rfl
@[simp] theorem State.fill_notice (r : Reply) (st : Status) (payload : List Byte) : (s.fill r st payload).notice = s.notice := rfl
@[simp] theorem State.fill_fresh (r : Reply) (st : Status) (payload : List Byte) : (s.fill r st payload).fresh = s.fresh := rfl
@[simp] theorem State.fill_pending (r : Reply) (st : Status) (payload : List Byte) : (s.fill r st payload).pending = s.pending := rfl

/-! ### `State.answerCount` -/

@[simp] theorem State.answerCount_straps (c : Cell) (st : Status) (n : Byte) (payload : List Byte) : (s.answerCount c st n payload).straps = s.straps := rfl
@[simp] theorem State.answerCount_rx (c : Cell) (st : Status) (n : Byte) (payload : List Byte) : (s.answerCount c st n payload).rx = s.rx := rfl
@[simp] theorem State.answerCount_tx (c : Cell) (st : Status) (n : Byte) (payload : List Byte) : (s.answerCount c st n payload).tx = s.tx := rfl
@[simp] theorem State.answerCount_sent (c : Cell) (st : Status) (n : Byte) (payload : List Byte) : (s.answerCount c st n payload).sent = s.sent := rfl
@[simp] theorem State.answerCount_delay (c : Cell) (st : Status) (n : Byte) (payload : List Byte) : (s.answerCount c st n payload).delay = s.delay := rfl
@[simp] theorem State.answerCount_filterInput (c : Cell) (st : Status) (n : Byte) (payload : List Byte) : (s.answerCount c st n payload).filterInput = s.filterInput := rfl
@[simp] theorem State.answerCount_slots (c : Cell) (st : Status) (n : Byte) (payload : List Byte) : (s.answerCount c st n payload).slots = s.slots := rfl
@[simp] theorem State.answerCount_progs (c : Cell) (st : Status) (n : Byte) (payload : List Byte) : (s.answerCount c st n payload).progs = s.progs := rfl
@[simp] theorem State.answerCount_meters (c : Cell) (st : Status) (n : Byte) (payload : List Byte) : (s.answerCount c st n payload).meters = s.meters := rfl
@[simp] theorem State.answerCount_heldStarts (c : Cell) (st : Status) (n : Byte) (payload : List Byte) : (s.answerCount c st n payload).heldStarts = s.heldStarts := rfl
@[simp] theorem State.answerCount_profiles (c : Cell) (st : Status) (n : Byte) (payload : List Byte) : (s.answerCount c st n payload).profiles = s.profiles := rfl
@[simp] theorem State.answerCount_laws (c : Cell) (st : Status) (n : Byte) (payload : List Byte) : (s.answerCount c st n payload).laws = s.laws := rfl
@[simp] theorem State.answerCount_lawMark (c : Cell) (st : Status) (n : Byte) (payload : List Byte) : (s.answerCount c st n payload).lawMark = s.lawMark := rfl
@[simp] theorem State.answerCount_arbiter (c : Cell) (st : Status) (n : Byte) (payload : List Byte) : (s.answerCount c st n payload).arbiter = s.arbiter := rfl
@[simp] theorem State.answerCount_engine (c : Cell) (st : Status) (n : Byte) (payload : List Byte) : (s.answerCount c st n payload).engine = s.engine := rfl
@[simp] theorem State.answerCount_cues (c : Cell) (st : Status) (n : Byte) (payload : List Byte) : (s.answerCount c st n payload).cues = s.cues := rfl
@[simp] theorem State.answerCount_owed (c : Cell) (st : Status) (n : Byte) (payload : List Byte) : (s.answerCount c st n payload).owed = s.owed := rfl
@[simp] theorem State.answerCount_gains (c : Cell) (st : Status) (n : Byte) (payload : List Byte) : (s.answerCount c st n payload).gains = s.gains := rfl
@[simp] theorem State.answerCount_cells (c : Cell) (st : Status) (n : Byte) (payload : List Byte) :
    (s.answerCount c st n payload).cells = { s.cells with inHand := none, responses := s.cells.responses ++ [(Cell.reply c).made st n payload] } := rfl
@[simp] theorem State.answerCount_notice (c : Cell) (st : Status) (n : Byte) (payload : List Byte) : (s.answerCount c st n payload).notice = s.notice := rfl
@[simp] theorem State.answerCount_fresh (c : Cell) (st : Status) (n : Byte) (payload : List Byte) : (s.answerCount c st n payload).fresh = s.fresh := rfl
@[simp] theorem State.answerCount_pending (c : Cell) (st : Status) (n : Byte) (payload : List Byte) : (s.answerCount c st n payload).pending = s.pending := rfl

/-! ### `State.answer` -/

@[simp] theorem State.answer_straps (c : Cell) (st : Status) (payload : List Byte) : (s.answer c st payload).straps = s.straps := rfl
@[simp] theorem State.answer_rx (c : Cell) (st : Status) (payload : List Byte) : (s.answer c st payload).rx = s.rx := rfl
@[simp] theorem State.answer_tx (c : Cell) (st : Status) (payload : List Byte) : (s.answer c st payload).tx = s.tx := rfl
@[simp] theorem State.answer_sent (c : Cell) (st : Status) (payload : List Byte) : (s.answer c st payload).sent = s.sent := rfl
@[simp] theorem State.answer_delay (c : Cell) (st : Status) (payload : List Byte) : (s.answer c st payload).delay = s.delay := rfl
@[simp] theorem State.answer_filterInput (c : Cell) (st : Status) (payload : List Byte) : (s.answer c st payload).filterInput = s.filterInput := rfl
@[simp] theorem State.answer_slots (c : Cell) (st : Status) (payload : List Byte) : (s.answer c st payload).slots = s.slots := rfl
@[simp] theorem State.answer_progs (c : Cell) (st : Status) (payload : List Byte) : (s.answer c st payload).progs = s.progs := rfl
@[simp] theorem State.answer_meters (c : Cell) (st : Status) (payload : List Byte) : (s.answer c st payload).meters = s.meters := rfl
@[simp] theorem State.answer_heldStarts (c : Cell) (st : Status) (payload : List Byte) : (s.answer c st payload).heldStarts = s.heldStarts := rfl
@[simp] theorem State.answer_profiles (c : Cell) (st : Status) (payload : List Byte) : (s.answer c st payload).profiles = s.profiles := rfl
@[simp] theorem State.answer_laws (c : Cell) (st : Status) (payload : List Byte) : (s.answer c st payload).laws = s.laws := rfl
@[simp] theorem State.answer_lawMark (c : Cell) (st : Status) (payload : List Byte) : (s.answer c st payload).lawMark = s.lawMark := rfl
@[simp] theorem State.answer_arbiter (c : Cell) (st : Status) (payload : List Byte) : (s.answer c st payload).arbiter = s.arbiter := rfl
@[simp] theorem State.answer_engine (c : Cell) (st : Status) (payload : List Byte) : (s.answer c st payload).engine = s.engine := rfl
@[simp] theorem State.answer_cues (c : Cell) (st : Status) (payload : List Byte) : (s.answer c st payload).cues = s.cues := rfl
@[simp] theorem State.answer_owed (c : Cell) (st : Status) (payload : List Byte) : (s.answer c st payload).owed = s.owed := rfl
@[simp] theorem State.answer_gains (c : Cell) (st : Status) (payload : List Byte) : (s.answer c st payload).gains = s.gains := rfl
@[simp] theorem State.answer_cells (c : Cell) (st : Status) (payload : List Byte) :
    (s.answer c st payload).cells = { s.cells with inHand := none, responses := s.cells.responses ++ [(Cell.reply c).made st (if Cell.kind c = 0x02 then 0 else Cell.byte c 7) payload] } := rfl
@[simp] theorem State.answer_notice (c : Cell) (st : Status) (payload : List Byte) : (s.answer c st payload).notice = s.notice := rfl
@[simp] theorem State.answer_fresh (c : Cell) (st : Status) (payload : List Byte) : (s.answer c st payload).fresh = s.fresh := rfl
@[simp] theorem State.answer_pending (c : Cell) (st : Status) (payload : List Byte) : (s.answer c st payload).pending = s.pending := rfl

/-! ### `State.startSegment` -/

@[simp] theorem State.startSegment_straps (p : Prog) : (s.startSegment p).straps = s.straps := rfl
@[simp] theorem State.startSegment_rx (p : Prog) : (s.startSegment p).rx = s.rx := rfl
@[simp] theorem State.startSegment_tx (p : Prog) : (s.startSegment p).tx = s.tx := rfl
@[simp] theorem State.startSegment_sent (p : Prog) : (s.startSegment p).sent = s.sent := rfl
@[simp] theorem State.startSegment_delay (p : Prog) : (s.startSegment p).delay = s.delay := rfl
@[simp] theorem State.startSegment_filterInput (p : Prog) : (s.startSegment p).filterInput = s.filterInput := rfl
@[simp] theorem State.startSegment_slots (p : Prog) : (s.startSegment p).slots = s.slots := rfl
@[simp] theorem State.startSegment_progs (p : Prog) :
    (s.startSegment p).progs = s.progs.set p { s.progs[p] with generation := s.progs[p].generation + 1 } := rfl
@[simp] theorem State.startSegment_meters (p : Prog) :
    (s.startSegment p).meters = s.meters.set p s.meters[p].startSegment := rfl
@[simp] theorem State.startSegment_heldStarts (p : Prog) : (s.startSegment p).heldStarts = s.heldStarts := rfl
@[simp] theorem State.startSegment_profiles (p : Prog) : (s.startSegment p).profiles = s.profiles := rfl
@[simp] theorem State.startSegment_laws (p : Prog) : (s.startSegment p).laws = s.laws := rfl
@[simp] theorem State.startSegment_lawMark (p : Prog) : (s.startSegment p).lawMark = s.lawMark := rfl
@[simp] theorem State.startSegment_arbiter (p : Prog) : (s.startSegment p).arbiter = s.arbiter := rfl
@[simp] theorem State.startSegment_engine (p : Prog) : (s.startSegment p).engine = s.engine := rfl
@[simp] theorem State.startSegment_cues (p : Prog) : (s.startSegment p).cues = s.cues := rfl
@[simp] theorem State.startSegment_owed (p : Prog) : (s.startSegment p).owed = s.owed := rfl
@[simp] theorem State.startSegment_gains (p : Prog) : (s.startSegment p).gains = s.gains := rfl
@[simp] theorem State.startSegment_cells (p : Prog) : (s.startSegment p).cells = s.cells := rfl
@[simp] theorem State.startSegment_notice (p : Prog) : (s.startSegment p).notice = s.notice := rfl
@[simp] theorem State.startSegment_fresh (p : Prog) : (s.startSegment p).fresh = s.fresh := rfl
@[simp] theorem State.startSegment_pending (p : Prog) : (s.startSegment p).pending = s.pending := rfl

/-! ### `State.stage` -/

@[simp] theorem State.stage_straps (e : Cue) (g : Option Int) (snap : Bool) : (s.stage e g snap).straps = s.straps := rfl
@[simp] theorem State.stage_rx (e : Cue) (g : Option Int) (snap : Bool) : (s.stage e g snap).rx = s.rx := rfl
@[simp] theorem State.stage_tx (e : Cue) (g : Option Int) (snap : Bool) : (s.stage e g snap).tx = s.tx := rfl
@[simp] theorem State.stage_sent (e : Cue) (g : Option Int) (snap : Bool) : (s.stage e g snap).sent = s.sent := rfl
@[simp] theorem State.stage_delay (e : Cue) (g : Option Int) (snap : Bool) : (s.stage e g snap).delay = s.delay := rfl
@[simp] theorem State.stage_filterInput (e : Cue) (g : Option Int) (snap : Bool) : (s.stage e g snap).filterInput = s.filterInput := rfl
@[simp] theorem State.stage_slots (e : Cue) (g : Option Int) (snap : Bool) : (s.stage e g snap).slots = s.slots := rfl
@[simp] theorem State.stage_progs (e : Cue) (g : Option Int) (snap : Bool) : (s.stage e g snap).progs = s.progs := rfl
@[simp] theorem State.stage_meters (e : Cue) (g : Option Int) (snap : Bool) : (s.stage e g snap).meters = s.meters := rfl
@[simp] theorem State.stage_heldStarts (e : Cue) (g : Option Int) (snap : Bool) : (s.stage e g snap).heldStarts = s.heldStarts := rfl
@[simp] theorem State.stage_profiles (e : Cue) (g : Option Int) (snap : Bool) : (s.stage e g snap).profiles = s.profiles := rfl
@[simp] theorem State.stage_laws (e : Cue) (g : Option Int) (snap : Bool) : (s.stage e g snap).laws = s.laws := rfl
@[simp] theorem State.stage_lawMark (e : Cue) (g : Option Int) (snap : Bool) : (s.stage e g snap).lawMark = s.lawMark := rfl
@[simp] theorem State.stage_arbiter (e : Cue) (g : Option Int) (snap : Bool) : (s.stage e g snap).arbiter = s.arbiter := rfl
@[simp] theorem State.stage_engine (e : Cue) (g : Option Int) (snap : Bool) : (s.stage e g snap).engine = s.engine := rfl
@[simp] theorem State.stage_cues (e : Cue) (g : Option Int) (snap : Bool) : (s.stage e g snap).cues = s.cues := rfl
@[simp] theorem State.stage_owed (e : Cue) (g : Option Int) (snap : Bool) : (s.stage e g snap).owed = s.owed := rfl
@[simp] theorem State.stage_cells (e : Cue) (g : Option Int) (snap : Bool) : (s.stage e g snap).cells = s.cells := rfl
@[simp] theorem State.stage_notice (e : Cue) (g : Option Int) (snap : Bool) : (s.stage e g snap).notice = s.notice := rfl
@[simp] theorem State.stage_fresh (e : Cue) (g : Option Int) (snap : Bool) : (s.stage e g snap).fresh = s.fresh := rfl
@[simp] theorem State.stage_pending (e : Cue) (g : Option Int) (snap : Bool) : (s.stage e g snap).pending = s.pending := rfl

/-! ### `State.beginOperation` -/

@[simp] theorem State.beginOperation_straps (op : Operation) (p : Prog) (c : Option Computation) (t : Option TableNo) : (s.beginOperation op p c t).straps = s.straps := rfl
@[simp] theorem State.beginOperation_rx (op : Operation) (p : Prog) (c : Option Computation) (t : Option TableNo) : (s.beginOperation op p c t).rx = s.rx := rfl
@[simp] theorem State.beginOperation_tx (op : Operation) (p : Prog) (c : Option Computation) (t : Option TableNo) : (s.beginOperation op p c t).tx = s.tx := rfl
@[simp] theorem State.beginOperation_sent (op : Operation) (p : Prog) (c : Option Computation) (t : Option TableNo) : (s.beginOperation op p c t).sent = s.sent := rfl
@[simp] theorem State.beginOperation_delay (op : Operation) (p : Prog) (c : Option Computation) (t : Option TableNo) : (s.beginOperation op p c t).delay = s.delay := rfl
@[simp] theorem State.beginOperation_filterInput (op : Operation) (p : Prog) (c : Option Computation) (t : Option TableNo) : (s.beginOperation op p c t).filterInput = s.filterInput := rfl
@[simp] theorem State.beginOperation_slots (op : Operation) (p : Prog) (c : Option Computation) (t : Option TableNo) : (s.beginOperation op p c t).slots = s.slots := rfl
@[simp] theorem State.beginOperation_progs (op : Operation) (p : Prog) (c : Option Computation) (t : Option TableNo) : (s.beginOperation op p c t).progs = s.progs := rfl
@[simp] theorem State.beginOperation_meters (op : Operation) (p : Prog) (c : Option Computation) (t : Option TableNo) : (s.beginOperation op p c t).meters = s.meters := rfl
@[simp] theorem State.beginOperation_heldStarts (op : Operation) (p : Prog) (c : Option Computation) (t : Option TableNo) : (s.beginOperation op p c t).heldStarts = s.heldStarts := rfl
@[simp] theorem State.beginOperation_profiles (op : Operation) (p : Prog) (c : Option Computation) (t : Option TableNo) : (s.beginOperation op p c t).profiles = s.profiles := rfl
@[simp] theorem State.beginOperation_laws (op : Operation) (p : Prog) (c : Option Computation) (t : Option TableNo) : (s.beginOperation op p c t).laws = s.laws := rfl
@[simp] theorem State.beginOperation_lawMark (op : Operation) (p : Prog) (c : Option Computation) (t : Option TableNo) :
    (s.beginOperation op p c t).lawMark = t.map fun t => (t, s.laws[t].active) := rfl
@[simp] theorem State.beginOperation_arbiter (op : Operation) (p : Prog) (c : Option Computation) (t : Option TableNo) : (s.beginOperation op p c t).arbiter = s.arbiter := rfl
@[simp] theorem State.beginOperation_cues (op : Operation) (p : Prog) (c : Option Computation) (t : Option TableNo) : (s.beginOperation op p c t).cues = s.cues := rfl
@[simp] theorem State.beginOperation_owed (op : Operation) (p : Prog) (c : Option Computation) (t : Option TableNo) : (s.beginOperation op p c t).owed = s.owed := rfl
@[simp] theorem State.beginOperation_gains (op : Operation) (p : Prog) (c : Option Computation) (t : Option TableNo) : (s.beginOperation op p c t).gains = s.gains := rfl
@[simp] theorem State.beginOperation_cells (op : Operation) (p : Prog) (c : Option Computation) (t : Option TableNo) : (s.beginOperation op p c t).cells = s.cells := rfl
@[simp] theorem State.beginOperation_notice (op : Operation) (p : Prog) (c : Option Computation) (t : Option TableNo) : (s.beginOperation op p c t).notice = s.notice := rfl
@[simp] theorem State.beginOperation_fresh (op : Operation) (p : Prog) (c : Option Computation) (t : Option TableNo) : (s.beginOperation op p c t).fresh = s.fresh := rfl
@[simp] theorem State.beginOperation_pending (op : Operation) (p : Prog) (c : Option Computation) (t : Option TableNo) : (s.beginOperation op p c t).pending = s.pending := rfl

/-! ### `State.copyLast` -/

@[simp] theorem State.copyLast_straps (p : Prog) (a b : Option Int) : (s.copyLast p a b).straps = s.straps := rfl
@[simp] theorem State.copyLast_rx (p : Prog) (a b : Option Int) : (s.copyLast p a b).rx = s.rx := rfl
@[simp] theorem State.copyLast_tx (p : Prog) (a b : Option Int) : (s.copyLast p a b).tx = s.tx := rfl
@[simp] theorem State.copyLast_sent (p : Prog) (a b : Option Int) : (s.copyLast p a b).sent = s.sent := rfl
@[simp] theorem State.copyLast_delay (p : Prog) (a b : Option Int) : (s.copyLast p a b).delay = s.delay := rfl
@[simp] theorem State.copyLast_filterInput (p : Prog) (a b : Option Int) : (s.copyLast p a b).filterInput = s.filterInput := rfl
@[simp] theorem State.copyLast_slots (p : Prog) (a b : Option Int) : (s.copyLast p a b).slots = s.slots := rfl
@[simp] theorem State.copyLast_progs (p : Prog) (a b : Option Int) : (s.copyLast p a b).progs = s.progs := rfl
@[simp] theorem State.copyLast_meters (p : Prog) (a b : Option Int) :
    (s.copyLast p a b).meters = s.meters.set p { s.meters[p] with lastShort := a, lastIntegrated := b } := rfl
@[simp] theorem State.copyLast_heldStarts (p : Prog) (a b : Option Int) : (s.copyLast p a b).heldStarts = s.heldStarts := rfl
@[simp] theorem State.copyLast_profiles (p : Prog) (a b : Option Int) : (s.copyLast p a b).profiles = s.profiles := rfl
@[simp] theorem State.copyLast_laws (p : Prog) (a b : Option Int) : (s.copyLast p a b).laws = s.laws := rfl
@[simp] theorem State.copyLast_lawMark (p : Prog) (a b : Option Int) : (s.copyLast p a b).lawMark = s.lawMark := rfl
@[simp] theorem State.copyLast_arbiter (p : Prog) (a b : Option Int) : (s.copyLast p a b).arbiter = s.arbiter := rfl
@[simp] theorem State.copyLast_engine (p : Prog) (a b : Option Int) : (s.copyLast p a b).engine = s.engine := rfl
@[simp] theorem State.copyLast_cues (p : Prog) (a b : Option Int) : (s.copyLast p a b).cues = s.cues := rfl
@[simp] theorem State.copyLast_owed (p : Prog) (a b : Option Int) : (s.copyLast p a b).owed = s.owed := rfl
@[simp] theorem State.copyLast_gains (p : Prog) (a b : Option Int) : (s.copyLast p a b).gains = s.gains := rfl
@[simp] theorem State.copyLast_cells (p : Prog) (a b : Option Int) : (s.copyLast p a b).cells = s.cells := rfl
@[simp] theorem State.copyLast_notice (p : Prog) (a b : Option Int) : (s.copyLast p a b).notice = s.notice := rfl
@[simp] theorem State.copyLast_fresh (p : Prog) (a b : Option Int) : (s.copyLast p a b).fresh = s.fresh := rfl
@[simp] theorem State.copyLast_pending (p : Prog) (a b : Option Int) : (s.copyLast p a b).pending = s.pending := rfl

/-! ### The receiver's own updates -/

variable (r : Receiver)

@[simp] theorem Receiver.setWords_lock (words : List ServiceWord) : (r.setWords words).lock = r.lock := rfl
@[simp] theorem Receiver.setWords_possible (words : List ServiceWord) : (r.setWords words).possible = r.possible := rfl
@[simp] theorem Receiver.setWords_words (words : List ServiceWord) : (r.setWords words).words = words := rfl
@[simp] theorem Receiver.setWords_header (words : List ServiceWord) : (r.setWords words).header = r.header := rfl
@[simp] theorem Receiver.setWords_time (words : List ServiceWord) : (r.setWords words).time = r.time := rfl
@[simp] theorem Receiver.setWords_expected (words : List ServiceWord) : (r.setWords words).expected = r.expected := rfl
@[simp] theorem Receiver.setWords_slip (words : List ServiceWord) : (r.setWords words).slip = r.slip := rfl
@[simp] theorem Receiver.setWords_settle (words : List ServiceWord) : (r.setWords words).settle = r.settle := rfl
@[simp] theorem Receiver.setWords_errorRun (words : List ServiceWord) : (r.setWords words).errorRun = r.errorRun := rfl
@[simp] theorem Receiver.setWords_periods (words : List ServiceWord) : (r.setWords words).periods = r.periods := rfl
@[simp] theorem Receiver.setWords_timeouts (words : List ServiceWord) : (r.setWords words).timeouts = r.timeouts := rfl
@[simp] theorem Receiver.setWords_hop (words : List ServiceWord) : (r.setWords words).hop = r.hop := rfl

@[simp] theorem Receiver.heard_lock : r.heard.lock = r.lock := rfl
@[simp] theorem Receiver.heard_possible : r.heard.possible = r.possible := rfl
@[simp] theorem Receiver.heard_words : r.heard.words = r.words := rfl
@[simp] theorem Receiver.heard_header : r.heard.header = r.header := rfl
@[simp] theorem Receiver.heard_time : r.heard.time = r.time := rfl
@[simp] theorem Receiver.heard_expected : r.heard.expected = r.expected := rfl
@[simp] theorem Receiver.heard_slip : r.heard.slip = r.slip := rfl
@[simp] theorem Receiver.heard_settle : r.heard.settle = r.settle := rfl
@[simp] theorem Receiver.heard_errorRun : r.heard.errorRun = r.errorRun := rfl
@[simp] theorem Receiver.heard_periods : r.heard.periods = 0 := rfl
@[simp] theorem Receiver.heard_timeouts : r.heard.timeouts = 0 := rfl
@[simp] theorem Receiver.heard_hop : r.heard.hop = r.hop := rfl

@[simp] theorem Receiver.passPeriod_lock : r.passPeriod.lock = r.lock := rfl
@[simp] theorem Receiver.passPeriod_possible : r.passPeriod.possible = r.possible := rfl
@[simp] theorem Receiver.passPeriod_words : r.passPeriod.words = r.words := rfl
@[simp] theorem Receiver.passPeriod_header : r.passPeriod.header = r.header := rfl
@[simp] theorem Receiver.passPeriod_time : r.passPeriod.time = r.time := rfl
@[simp] theorem Receiver.passPeriod_expected : r.passPeriod.expected = r.expected := rfl
@[simp] theorem Receiver.passPeriod_slip : r.passPeriod.slip = r.slip := rfl
@[simp] theorem Receiver.passPeriod_settle : r.passPeriod.settle = r.settle := rfl
@[simp] theorem Receiver.passPeriod_errorRun : r.passPeriod.errorRun = r.errorRun := rfl
@[simp] theorem Receiver.passPeriod_periods : r.passPeriod.periods = r.periods + 1 := rfl
@[simp] theorem Receiver.passPeriod_timeouts : r.passPeriod.timeouts = r.timeouts := rfl
@[simp] theorem Receiver.passPeriod_hop : r.passPeriod.hop = r.hop := rfl

@[simp] theorem Receiver.passTimeout_lock : r.passTimeout.lock = r.lock := rfl
@[simp] theorem Receiver.passTimeout_possible : r.passTimeout.possible = r.possible := rfl
@[simp] theorem Receiver.passTimeout_words : r.passTimeout.words = r.words := rfl
@[simp] theorem Receiver.passTimeout_header : r.passTimeout.header = r.header := rfl
@[simp] theorem Receiver.passTimeout_time : r.passTimeout.time = r.time := rfl
@[simp] theorem Receiver.passTimeout_expected : r.passTimeout.expected = r.expected := rfl
@[simp] theorem Receiver.passTimeout_slip : r.passTimeout.slip = r.slip := rfl
@[simp] theorem Receiver.passTimeout_settle : r.passTimeout.settle = r.settle := rfl
@[simp] theorem Receiver.passTimeout_errorRun : r.passTimeout.errorRun = r.errorRun := rfl
@[simp] theorem Receiver.passTimeout_periods : r.passTimeout.periods = r.periods := rfl
@[simp] theorem Receiver.passTimeout_timeouts : r.passTimeout.timeouts = r.timeouts + 1 := rfl
@[simp] theorem Receiver.passTimeout_hop : r.passTimeout.hop = r.hop := rfl

@[simp] theorem Receiver.takeError_lock : r.takeError.lock = r.lock := rfl
@[simp] theorem Receiver.takeError_possible : r.takeError.possible = r.possible := rfl
@[simp] theorem Receiver.takeError_words : r.takeError.words = r.words := rfl
@[simp] theorem Receiver.takeError_header : r.takeError.header = .error := rfl
@[simp] theorem Receiver.takeError_time : r.takeError.time = r.time := rfl
@[simp] theorem Receiver.takeError_expected : r.takeError.expected = r.expected := rfl
@[simp] theorem Receiver.takeError_slip : r.takeError.slip = none := rfl
@[simp] theorem Receiver.takeError_settle : r.takeError.settle = r.settle := rfl
@[simp] theorem Receiver.takeError_errorRun : r.takeError.errorRun = r.errorRun + 1 := rfl
@[simp] theorem Receiver.takeError_periods : r.takeError.periods = r.periods := rfl
@[simp] theorem Receiver.takeError_timeouts : r.takeError.timeouts = r.timeouts := rfl
@[simp] theorem Receiver.takeError_hop : r.takeError.hop = r.hop := rfl

@[simp] theorem Receiver.takeValid_lock (hop : Byte) : (r.takeValid hop).lock = r.lock := rfl
@[simp] theorem Receiver.takeValid_possible (hop : Byte) : (r.takeValid hop).possible = r.possible := rfl
@[simp] theorem Receiver.takeValid_words (hop : Byte) : (r.takeValid hop).words = r.words := rfl
@[simp] theorem Receiver.takeValid_header (hop : Byte) : (r.takeValid hop).header = .valid := rfl
@[simp] theorem Receiver.takeValid_time (hop : Byte) : (r.takeValid hop).time = r.time := rfl
@[simp] theorem Receiver.takeValid_expected (hop : Byte) : (r.takeValid hop).expected = r.expected := rfl
@[simp] theorem Receiver.takeValid_slip (hop : Byte) : (r.takeValid hop).slip = r.slip := rfl
@[simp] theorem Receiver.takeValid_settle (hop : Byte) : (r.takeValid hop).settle = r.settle := rfl
@[simp] theorem Receiver.takeValid_errorRun (hop : Byte) : (r.takeValid hop).errorRun = 0 := rfl
@[simp] theorem Receiver.takeValid_periods (hop : Byte) : (r.takeValid hop).periods = r.periods := rfl
@[simp] theorem Receiver.takeValid_timeouts (hop : Byte) : (r.takeValid hop).timeouts = r.timeouts := rfl
@[simp] theorem Receiver.takeValid_hop (hop : Byte) : (r.takeValid hop).hop = hop := rfl

@[simp] theorem Receiver.toSearch_lock : r.toSearch.lock = .search := rfl
@[simp] theorem Receiver.toSearch_possible : r.toSearch.possible = none := rfl
@[simp] theorem Receiver.toSearch_words : r.toSearch.words = [] := rfl
@[simp] theorem Receiver.toSearch_header : r.toSearch.header = .unchecked := rfl
@[simp] theorem Receiver.toSearch_time : r.toSearch.time = 0 := rfl
@[simp] theorem Receiver.toSearch_expected : r.toSearch.expected = none := rfl
@[simp] theorem Receiver.toSearch_slip : r.toSearch.slip = none := rfl
@[simp] theorem Receiver.toSearch_settle : r.toSearch.settle = none := rfl
@[simp] theorem Receiver.toSearch_errorRun : r.toSearch.errorRun = 0 := rfl
@[simp] theorem Receiver.toSearch_periods : r.toSearch.periods = 0 := rfl
@[simp] theorem Receiver.toSearch_timeouts : r.toSearch.timeouts = 0 := rfl
@[simp] theorem Receiver.toSearch_hop : r.toSearch.hop = r.hop := rfl

@[simp] theorem Receiver.enterSettling_lock (w0 w1 : ServiceWord) : (r.enterSettling w0 w1).lock = .settling := rfl
@[simp] theorem Receiver.enterSettling_possible (w0 w1 : ServiceWord) : (r.enterSettling w0 w1).possible = r.possible := rfl
@[simp] theorem Receiver.enterSettling_words (w0 w1 : ServiceWord) : (r.enterSettling w0 w1).words = [w0, w1] := rfl
@[simp] theorem Receiver.enterSettling_header (w0 w1 : ServiceWord) : (r.enterSettling w0 w1).header = .valid := rfl
@[simp] theorem Receiver.enterSettling_time (w0 w1 : ServiceWord) : (r.enterSettling w0 w1).time = w1 := rfl
@[simp] theorem Receiver.enterSettling_expected (w0 w1 : ServiceWord) : (r.enterSettling w0 w1).expected = some (w1 + 16) := rfl
@[simp] theorem Receiver.enterSettling_slip (w0 w1 : ServiceWord) : (r.enterSettling w0 w1).slip = none := rfl
@[simp] theorem Receiver.enterSettling_settle (w0 w1 : ServiceWord) : (r.enterSettling w0 w1).settle = some 0 := rfl
@[simp] theorem Receiver.enterSettling_errorRun (w0 w1 : ServiceWord) : (r.enterSettling w0 w1).errorRun = 0 := rfl
@[simp] theorem Receiver.enterSettling_periods (w0 w1 : ServiceWord) : (r.enterSettling w0 w1).periods = r.periods := rfl
@[simp] theorem Receiver.enterSettling_timeouts (w0 w1 : ServiceWord) : (r.enterSettling w0 w1).timeouts = r.timeouts := rfl
@[simp] theorem Receiver.enterSettling_hop (w0 w1 : ServiceWord) : (r.enterSettling w0 w1).hop = hopOf w0 := rfl

end Sys2Proof.Machine
end

