-- ==== Sys2Proof/Laws/Frames.lean ====
section
/-! SUPPORT. The frames of the model's operations: for each operation one lemma that lists the fields of the state it leaves as
they were. A field that the list does not name is one the operation can write. -/

namespace Sys2Proof.Machine

/-- A projection that one step of a fold keeps, the fold keeps. -/
theorem foldl_keeps {α β : Type} (f : State → β) (g : State → α → State) (h : ∀ s a, f (g s a) = f s) (l : List α) (s : State) :
    f (l.foldl g s) = f s := by
  induction l generalizing s with
  | nil => rfl
  | cons a l ih => rw [List.foldl_cons, ih, h]

variable (s : State)

/-! ### Operations of Ops -/

@[simp] theorem State.reenter_frame (op : Operation) (p : Prog) :
    (s.reenter op p).straps = s.straps ∧ (s.reenter op p).rx = s.rx ∧ (s.reenter op p).tx = s.tx ∧
    (s.reenter op p).sent = s.sent ∧ (s.reenter op p).delay = s.delay ∧ (s.reenter op p).filterInput = s.filterInput ∧
    (s.reenter op p).slots = s.slots ∧ (s.reenter op p).progs = s.progs ∧ (s.reenter op p).meters = s.meters ∧
    (s.reenter op p).heldStarts = s.heldStarts ∧ (s.reenter op p).profiles = s.profiles ∧
    (s.reenter op p).laws = s.laws ∧ (s.reenter op p).lawMark = s.lawMark ∧ (s.reenter op p).engine = s.engine ∧
    (s.reenter op p).cues = s.cues ∧ (s.reenter op p).owed = s.owed ∧ (s.reenter op p).gains = s.gains ∧
    (s.reenter op p).cells = s.cells ∧ (s.reenter op p).notice = s.notice ∧ (s.reenter op p).fresh = s.fresh ∧
    (s.reenter op p).pending = s.pending := by
  unfold State.reenter; (repeat' split) <;> simp

@[simp] theorem State.cancelAutomatic_frame :
    s.cancelAutomatic.straps = s.straps ∧ s.cancelAutomatic.rx = s.rx ∧ s.cancelAutomatic.tx = s.tx ∧
    s.cancelAutomatic.sent = s.sent ∧ s.cancelAutomatic.delay = s.delay ∧
    s.cancelAutomatic.filterInput = s.filterInput ∧ s.cancelAutomatic.slots = s.slots ∧
    s.cancelAutomatic.progs = s.progs ∧ s.cancelAutomatic.meters = s.meters ∧
    s.cancelAutomatic.heldStarts = s.heldStarts ∧ s.cancelAutomatic.profiles = s.profiles ∧
    s.cancelAutomatic.laws = s.laws ∧ s.cancelAutomatic.cues = s.cues ∧ s.cancelAutomatic.owed = s.owed ∧
    s.cancelAutomatic.gains = s.gains ∧ s.cancelAutomatic.cells = s.cells ∧ s.cancelAutomatic.notice = s.notice ∧
    s.cancelAutomatic.fresh = s.fresh ∧ s.cancelAutomatic.pending = s.pending := by
  unfold State.cancelAutomatic; (repeat' split) <;> simp

@[simp] theorem offerCues_frame (old : State) :
    (offerCues old s).straps = s.straps ∧ (offerCues old s).rx = s.rx ∧ (offerCues old s).tx = s.tx ∧
    (offerCues old s).sent = s.sent ∧ (offerCues old s).delay = s.delay ∧
    (offerCues old s).filterInput = s.filterInput ∧ (offerCues old s).slots = s.slots ∧
    (offerCues old s).progs = s.progs ∧ (offerCues old s).meters = s.meters ∧
    (offerCues old s).heldStarts = s.heldStarts ∧ (offerCues old s).profiles = s.profiles ∧
    (offerCues old s).laws = s.laws ∧ (offerCues old s).cues = s.cues ∧ (offerCues old s).owed = s.owed ∧
    (offerCues old s).gains = s.gains ∧ (offerCues old s).cells = s.cells ∧ (offerCues old s).notice = s.notice ∧
    (offerCues old s).fresh = s.fresh ∧ (offerCues old s).pending = s.pending := by
  unfold offerCues; (repeat' split) <;> simp

/-! ### Measurement -/

@[simp] theorem State.accumulate_frame :
    s.accumulate.straps = s.straps ∧ s.accumulate.rx = s.rx ∧ s.accumulate.tx = s.tx ∧
    s.accumulate.sent = s.sent ∧ s.accumulate.delay = s.delay ∧ s.accumulate.filterInput = s.filterInput ∧
    s.accumulate.slots = s.slots ∧ s.accumulate.progs = s.progs ∧ s.accumulate.heldStarts = s.heldStarts ∧
    s.accumulate.profiles = s.profiles ∧ s.accumulate.laws = s.laws ∧ s.accumulate.lawMark = s.lawMark ∧
    s.accumulate.arbiter = s.arbiter ∧ s.accumulate.engine = s.engine ∧ s.accumulate.cues = s.cues ∧
    s.accumulate.owed = s.owed ∧ s.accumulate.gains = s.gains ∧ s.accumulate.cells = s.cells ∧
    s.accumulate.notice = s.notice ∧ s.accumulate.fresh = s.fresh ∧ s.accumulate.pending = s.pending := by
  unfold State.accumulate; (repeat' split) <;> simp

@[simp] theorem State.reportWindow_frame (p : Prog) (l : Option Int) :
    (s.reportWindow p l).straps = s.straps ∧ (s.reportWindow p l).rx = s.rx ∧ (s.reportWindow p l).tx = s.tx ∧
    (s.reportWindow p l).sent = s.sent ∧ (s.reportWindow p l).delay = s.delay ∧
    (s.reportWindow p l).filterInput = s.filterInput ∧ (s.reportWindow p l).slots = s.slots ∧
    (s.reportWindow p l).meters = s.meters ∧ (s.reportWindow p l).heldStarts = s.heldStarts ∧
    (s.reportWindow p l).profiles = s.profiles ∧ (s.reportWindow p l).laws = s.laws ∧
    (s.reportWindow p l).lawMark = s.lawMark ∧ (s.reportWindow p l).engine = s.engine ∧
    (s.reportWindow p l).cues = s.cues ∧ (s.reportWindow p l).owed = s.owed ∧ (s.reportWindow p l).gains = s.gains ∧
    (s.reportWindow p l).cells = s.cells ∧ (s.reportWindow p l).fresh = s.fresh ∧
    (s.reportWindow p l).pending = s.pending := by
  unfold State.reportWindow; (repeat' split) <;> simp

@[simp] theorem State.completeWindow_frame (p : Prog) (b : List BlockPower) :
    (s.completeWindow p b).straps = s.straps ∧ (s.completeWindow p b).rx = s.rx ∧ (s.completeWindow p b).tx = s.tx ∧
    (s.completeWindow p b).sent = s.sent ∧ (s.completeWindow p b).delay = s.delay ∧
    (s.completeWindow p b).filterInput = s.filterInput ∧ (s.completeWindow p b).slots = s.slots ∧
    (s.completeWindow p b).heldStarts = s.heldStarts ∧ (s.completeWindow p b).profiles = s.profiles ∧
    (s.completeWindow p b).laws = s.laws ∧ (s.completeWindow p b).lawMark = s.lawMark ∧
    (s.completeWindow p b).engine = s.engine ∧ (s.completeWindow p b).cues = s.cues ∧
    (s.completeWindow p b).owed = s.owed ∧ (s.completeWindow p b).gains = s.gains ∧
    (s.completeWindow p b).cells = s.cells ∧ (s.completeWindow p b).fresh = s.fresh ∧
    (s.completeWindow p b).pending = s.pending := by
  unfold State.completeWindow; dsimp only; (repeat' split) <;> simp

@[simp] theorem State.settleWindow_frame (starts : ProgSet) (p : Prog) :
    (State.settleWindow starts s p).straps = s.straps ∧ (State.settleWindow starts s p).rx = s.rx ∧
    (State.settleWindow starts s p).tx = s.tx ∧ (State.settleWindow starts s p).sent = s.sent ∧
    (State.settleWindow starts s p).delay = s.delay ∧ (State.settleWindow starts s p).filterInput = s.filterInput ∧
    (State.settleWindow starts s p).slots = s.slots ∧ (State.settleWindow starts s p).heldStarts = s.heldStarts ∧
    (State.settleWindow starts s p).profiles = s.profiles ∧ (State.settleWindow starts s p).laws = s.laws ∧
    (State.settleWindow starts s p).lawMark = s.lawMark ∧ (State.settleWindow starts s p).engine = s.engine ∧
    (State.settleWindow starts s p).cues = s.cues ∧ (State.settleWindow starts s p).owed = s.owed ∧
    (State.settleWindow starts s p).gains = s.gains ∧ (State.settleWindow starts s p).cells = s.cells ∧
    (State.settleWindow starts s p).fresh = s.fresh ∧ (State.settleWindow starts s p).pending = s.pending := by
  unfold State.settleWindow; (repeat' split) <;> simp

@[simp] theorem State.settleWindows_frame :
    s.settleWindows.straps = s.straps ∧ s.settleWindows.rx = s.rx ∧ s.settleWindows.tx = s.tx ∧
    s.settleWindows.sent = s.sent ∧ s.settleWindows.delay = s.delay ∧
    s.settleWindows.filterInput = s.filterInput ∧ s.settleWindows.slots = s.slots ∧
    s.settleWindows.profiles = s.profiles ∧ s.settleWindows.laws = s.laws ∧ s.settleWindows.lawMark = s.lawMark ∧
    s.settleWindows.engine = s.engine ∧ s.settleWindows.cues = s.cues ∧ s.settleWindows.owed = s.owed ∧
    s.settleWindows.gains = s.gains ∧ s.settleWindows.cells = s.cells ∧ s.settleWindows.fresh = s.fresh ∧
    s.settleWindows.pending = s.pending := by
  unfold State.settleWindows; split
  · exact ⟨foldl_keeps State.straps _ (fun s p => by simp) _ _,
      foldl_keeps State.rx _ (fun s p => by simp) _ _,
      foldl_keeps State.tx _ (fun s p => by simp) _ _,
      foldl_keeps State.sent _ (fun s p => by simp) _ _,
      foldl_keeps State.delay _ (fun s p => by simp) _ _,
      foldl_keeps State.filterInput _ (fun s p => by simp) _ _,
      foldl_keeps State.slots _ (fun s p => by simp) _ _,
      foldl_keeps State.profiles _ (fun s p => by simp) _ _,
      foldl_keeps State.laws _ (fun s p => by simp) _ _,
      foldl_keeps State.lawMark _ (fun s p => by simp) _ _,
      foldl_keeps State.engine _ (fun s p => by simp) _ _,
      foldl_keeps State.cues _ (fun s p => by simp) _ _,
      foldl_keeps State.owed _ (fun s p => by simp) _ _,
      foldl_keeps State.gains _ (fun s p => by simp) _ _,
      foldl_keeps State.cells _ (fun s p => by simp) _ _,
      foldl_keeps State.fresh _ (fun s p => by simp) _ _,
      foldl_keeps State.pending _ (fun s p => by simp) _ _⟩
  · simp

@[simp] theorem State.meterBoundary_frame (c : ProgSet) (e : Bool) :
    (s.meterBoundary c e).straps = s.straps ∧ (s.meterBoundary c e).rx = s.rx ∧ (s.meterBoundary c e).tx = s.tx ∧
    (s.meterBoundary c e).sent = s.sent ∧ (s.meterBoundary c e).delay = s.delay ∧
    (s.meterBoundary c e).filterInput = s.filterInput ∧ (s.meterBoundary c e).slots = s.slots ∧
    (s.meterBoundary c e).progs = s.progs ∧ (s.meterBoundary c e).profiles = s.profiles ∧
    (s.meterBoundary c e).laws = s.laws ∧ (s.meterBoundary c e).lawMark = s.lawMark ∧
    (s.meterBoundary c e).arbiter = s.arbiter ∧ (s.meterBoundary c e).engine = s.engine ∧
    (s.meterBoundary c e).cues = s.cues ∧ (s.meterBoundary c e).owed = s.owed ∧ (s.meterBoundary c e).gains = s.gains ∧
    (s.meterBoundary c e).cells = s.cells ∧ (s.meterBoundary c e).notice = s.notice ∧
    (s.meterBoundary c e).fresh = s.fresh ∧ (s.meterBoundary c e).pending = s.pending := by
  unfold State.meterBoundary; (repeat' split) <;> simp

@[simp] theorem State.takeResetMark_frame (p : Prog) :
    (s.takeResetMark p).straps = s.straps ∧ (s.takeResetMark p).rx = s.rx ∧ (s.takeResetMark p).tx = s.tx ∧
    (s.takeResetMark p).sent = s.sent ∧ (s.takeResetMark p).delay = s.delay ∧
    (s.takeResetMark p).filterInput = s.filterInput ∧ (s.takeResetMark p).slots = s.slots ∧
    (s.takeResetMark p).heldStarts = s.heldStarts ∧ (s.takeResetMark p).profiles = s.profiles ∧
    (s.takeResetMark p).laws = s.laws ∧ (s.takeResetMark p).lawMark = s.lawMark ∧
    (s.takeResetMark p).arbiter = s.arbiter ∧ (s.takeResetMark p).engine = s.engine ∧
    (s.takeResetMark p).cues = s.cues ∧ (s.takeResetMark p).owed = s.owed ∧ (s.takeResetMark p).gains = s.gains ∧
    (s.takeResetMark p).cells = s.cells ∧ (s.takeResetMark p).notice = s.notice ∧ (s.takeResetMark p).fresh = s.fresh ∧
    (s.takeResetMark p).pending = s.pending := by
  unfold State.takeResetMark; (repeat' split) <;> simp

@[simp] theorem State.meterSettling_frame :
    s.meterSettling.straps = s.straps ∧ s.meterSettling.rx = s.rx ∧ s.meterSettling.tx = s.tx ∧
    s.meterSettling.sent = s.sent ∧ s.meterSettling.delay = s.delay ∧
    s.meterSettling.filterInput = s.filterInput ∧ s.meterSettling.slots = s.slots ∧
    s.meterSettling.heldStarts = s.heldStarts ∧ s.meterSettling.profiles = s.profiles ∧
    s.meterSettling.laws = s.laws ∧ s.meterSettling.lawMark = s.lawMark ∧ s.meterSettling.arbiter = s.arbiter ∧
    s.meterSettling.engine = s.engine ∧ s.meterSettling.cues = s.cues ∧ s.meterSettling.owed = s.owed ∧
    s.meterSettling.gains = s.gains ∧ s.meterSettling.cells = s.cells ∧ s.meterSettling.notice = s.notice ∧
    s.meterSettling.fresh = s.fresh ∧ s.meterSettling.pending = s.pending := by
  exact ⟨foldl_keeps State.straps _ (fun s p => by simp) _ _,
      foldl_keeps State.rx _ (fun s p => by simp) _ _,
      foldl_keeps State.tx _ (fun s p => by simp) _ _,
      foldl_keeps State.sent _ (fun s p => by simp) _ _,
      foldl_keeps State.delay _ (fun s p => by simp) _ _,
      foldl_keeps State.filterInput _ (fun s p => by simp) _ _,
      foldl_keeps State.slots _ (fun s p => by simp) _ _,
      foldl_keeps State.heldStarts _ (fun s p => by simp) _ _,
      foldl_keeps State.profiles _ (fun s p => by simp) _ _,
      foldl_keeps State.laws _ (fun s p => by simp) _ _,
      foldl_keeps State.lawMark _ (fun s p => by simp) _ _,
      foldl_keeps State.arbiter _ (fun s p => by simp) _ _,
      foldl_keeps State.engine _ (fun s p => by simp) _ _,
      foldl_keeps State.cues _ (fun s p => by simp) _ _,
      foldl_keeps State.owed _ (fun s p => by simp) _ _,
      foldl_keeps State.gains _ (fun s p => by simp) _ _,
      foldl_keeps State.cells _ (fun s p => by simp) _ _,
      foldl_keeps State.notice _ (fun s p => by simp) _ _,
      foldl_keeps State.fresh _ (fun s p => by simp) _ _,
      foldl_keeps State.pending _ (fun s p => by simp) _ _⟩

@[simp] theorem State.meterDeparture_frame :
    s.meterDeparture.straps = s.straps ∧ s.meterDeparture.rx = s.rx ∧ s.meterDeparture.tx = s.tx ∧
    s.meterDeparture.sent = s.sent ∧ s.meterDeparture.delay = s.delay ∧
    s.meterDeparture.filterInput = s.filterInput ∧ s.meterDeparture.slots = s.slots ∧
    s.meterDeparture.progs = s.progs ∧ s.meterDeparture.heldStarts = s.heldStarts ∧
    s.meterDeparture.profiles = s.profiles ∧ s.meterDeparture.laws = s.laws ∧
    s.meterDeparture.lawMark = s.lawMark ∧ s.meterDeparture.arbiter = s.arbiter ∧
    s.meterDeparture.engine = s.engine ∧ s.meterDeparture.cues = s.cues ∧ s.meterDeparture.owed = s.owed ∧
    s.meterDeparture.gains = s.gains ∧ s.meterDeparture.cells = s.cells ∧ s.meterDeparture.notice = s.notice ∧
    s.meterDeparture.fresh = s.fresh ∧ s.meterDeparture.pending = s.pending := by
  unfold State.meterDeparture; (repeat' split) <;> simp

/-! ### Gain Stage and Cue Queue -/

@[simp] theorem State.gainBoundary_frame (t : LinkTime) (e : Bool) :
    (s.gainBoundary t e).straps = s.straps ∧ (s.gainBoundary t e).rx = s.rx ∧ (s.gainBoundary t e).tx = s.tx ∧
    (s.gainBoundary t e).sent = s.sent ∧ (s.gainBoundary t e).delay = s.delay ∧
    (s.gainBoundary t e).filterInput = s.filterInput ∧ (s.gainBoundary t e).slots = s.slots ∧
    (s.gainBoundary t e).progs = s.progs ∧ (s.gainBoundary t e).meters = s.meters ∧
    (s.gainBoundary t e).heldStarts = s.heldStarts ∧ (s.gainBoundary t e).profiles = s.profiles ∧
    (s.gainBoundary t e).laws = s.laws ∧ (s.gainBoundary t e).cues = s.cues ∧ (s.gainBoundary t e).owed = s.owed ∧
    (s.gainBoundary t e).cells = s.cells ∧ (s.gainBoundary t e).notice = s.notice ∧
    (s.gainBoundary t e).fresh = s.fresh ∧ (s.gainBoundary t e).pending = s.pending := by
  simp [State.gainBoundary]

@[simp] theorem State.frameCheck_frame (f : Samples) :
    (s.frameCheck f).straps = s.straps ∧ (s.frameCheck f).rx = s.rx ∧ (s.frameCheck f).tx = s.tx ∧
    (s.frameCheck f).sent = s.sent ∧ (s.frameCheck f).delay = s.delay ∧ (s.frameCheck f).filterInput = s.filterInput ∧
    (s.frameCheck f).slots = s.slots ∧ (s.frameCheck f).progs = s.progs ∧ (s.frameCheck f).meters = s.meters ∧
    (s.frameCheck f).heldStarts = s.heldStarts ∧ (s.frameCheck f).profiles = s.profiles ∧
    (s.frameCheck f).laws = s.laws ∧ (s.frameCheck f).lawMark = s.lawMark ∧ (s.frameCheck f).arbiter = s.arbiter ∧
    (s.frameCheck f).engine = s.engine ∧ (s.frameCheck f).cues = s.cues ∧ (s.frameCheck f).owed = s.owed ∧
    (s.frameCheck f).cells = s.cells ∧ (s.frameCheck f).notice = s.notice ∧ (s.frameCheck f).fresh = s.fresh ∧
    (s.frameCheck f).pending = s.pending := by
  unfold State.frameCheck; (repeat' split) <;> simp

@[simp] theorem State.gainDeparture_frame :
    s.gainDeparture.straps = s.straps ∧ s.gainDeparture.rx = s.rx ∧ s.gainDeparture.tx = s.tx ∧
    s.gainDeparture.sent = s.sent ∧ s.gainDeparture.delay = s.delay ∧
    s.gainDeparture.filterInput = s.filterInput ∧ s.gainDeparture.slots = s.slots ∧
    s.gainDeparture.progs = s.progs ∧ s.gainDeparture.meters = s.meters ∧
    s.gainDeparture.heldStarts = s.heldStarts ∧ s.gainDeparture.profiles = s.profiles ∧
    s.gainDeparture.laws = s.laws ∧ s.gainDeparture.lawMark = s.lawMark ∧ s.gainDeparture.arbiter = s.arbiter ∧
    s.gainDeparture.engine = s.engine ∧ s.gainDeparture.cues = s.cues ∧ s.gainDeparture.owed = s.owed ∧
    s.gainDeparture.cells = s.cells ∧ s.gainDeparture.notice = s.notice ∧ s.gainDeparture.fresh = s.fresh ∧
    s.gainDeparture.pending = s.pending := by
  unfold State.gainDeparture; (repeat' split) <;> simp

@[simp] theorem State.dueCheck_frame (t : LinkTime) :
    (s.dueCheck t).straps = s.straps ∧ (s.dueCheck t).rx = s.rx ∧ (s.dueCheck t).tx = s.tx ∧
    (s.dueCheck t).sent = s.sent ∧ (s.dueCheck t).delay = s.delay ∧ (s.dueCheck t).filterInput = s.filterInput ∧
    (s.dueCheck t).slots = s.slots ∧ (s.dueCheck t).progs = s.progs ∧ (s.dueCheck t).meters = s.meters ∧
    (s.dueCheck t).heldStarts = s.heldStarts ∧ (s.dueCheck t).profiles = s.profiles ∧ (s.dueCheck t).laws = s.laws ∧
    (s.dueCheck t).gains = s.gains ∧ (s.dueCheck t).cells = s.cells ∧ (s.dueCheck t).notice = s.notice ∧
    (s.dueCheck t).fresh = s.fresh ∧ (s.dueCheck t).pending = s.pending := by
  simp [State.dueCheck]

@[simp] theorem State.insertPosted_frame (c : Cue) (b : Bool) :
    (s.insertPosted c b).straps = s.straps ∧ (s.insertPosted c b).rx = s.rx ∧ (s.insertPosted c b).tx = s.tx ∧
    (s.insertPosted c b).sent = s.sent ∧ (s.insertPosted c b).delay = s.delay ∧
    (s.insertPosted c b).filterInput = s.filterInput ∧ (s.insertPosted c b).slots = s.slots ∧
    (s.insertPosted c b).progs = s.progs ∧ (s.insertPosted c b).meters = s.meters ∧
    (s.insertPosted c b).heldStarts = s.heldStarts ∧ (s.insertPosted c b).profiles = s.profiles ∧
    (s.insertPosted c b).laws = s.laws ∧ (s.insertPosted c b).gains = s.gains ∧ (s.insertPosted c b).cells = s.cells ∧
    (s.insertPosted c b).fresh = s.fresh ∧ (s.insertPosted c b).pending = s.pending := by
  simp [State.insertPosted]

@[simp] theorem postCue_frame (c : Cell) :
    (postCue c s).straps = s.straps ∧ (postCue c s).rx = s.rx ∧ (postCue c s).tx = s.tx ∧ (postCue c s).sent = s.sent ∧
    (postCue c s).delay = s.delay ∧ (postCue c s).filterInput = s.filterInput ∧ (postCue c s).slots = s.slots ∧
    (postCue c s).progs = s.progs ∧ (postCue c s).meters = s.meters ∧ (postCue c s).heldStarts = s.heldStarts ∧
    (postCue c s).profiles = s.profiles ∧ (postCue c s).laws = s.laws ∧ (postCue c s).gains = s.gains ∧
    (postCue c s).fresh = s.fresh ∧ (postCue c s).pending = s.pending := by
  unfold postCue; dsimp only; (repeat' split) <;> simp

@[simp] theorem withdrawCue_frame (c : Cell) :
    (withdrawCue c s).straps = s.straps ∧ (withdrawCue c s).rx = s.rx ∧ (withdrawCue c s).tx = s.tx ∧
    (withdrawCue c s).sent = s.sent ∧ (withdrawCue c s).delay = s.delay ∧
    (withdrawCue c s).filterInput = s.filterInput ∧ (withdrawCue c s).slots = s.slots ∧
    (withdrawCue c s).progs = s.progs ∧ (withdrawCue c s).meters = s.meters ∧
    (withdrawCue c s).heldStarts = s.heldStarts ∧ (withdrawCue c s).profiles = s.profiles ∧
    (withdrawCue c s).laws = s.laws ∧ (withdrawCue c s).lawMark = s.lawMark ∧ (withdrawCue c s).arbiter = s.arbiter ∧
    (withdrawCue c s).engine = s.engine ∧ (withdrawCue c s).owed = s.owed ∧ (withdrawCue c s).gains = s.gains ∧
    (withdrawCue c s).notice = s.notice ∧ (withdrawCue c s).fresh = s.fresh ∧ (withdrawCue c s).pending = s.pending := by
  unfold withdrawCue; dsimp only; (repeat' split) <;> simp

/-! ### Law Engine -/

@[simp] theorem State.joinDirective_frame (c : Cell) (op : DirectiveOp) (p : Prog) :
    (s.joinDirective c op p).straps = s.straps ∧ (s.joinDirective c op p).rx = s.rx ∧
    (s.joinDirective c op p).tx = s.tx ∧ (s.joinDirective c op p).sent = s.sent ∧
    (s.joinDirective c op p).delay = s.delay ∧ (s.joinDirective c op p).filterInput = s.filterInput ∧
    (s.joinDirective c op p).slots = s.slots ∧ (s.joinDirective c op p).progs = s.progs ∧
    (s.joinDirective c op p).meters = s.meters ∧ (s.joinDirective c op p).heldStarts = s.heldStarts ∧
    (s.joinDirective c op p).profiles = s.profiles ∧ (s.joinDirective c op p).laws = s.laws ∧
    (s.joinDirective c op p).cues = s.cues ∧ (s.joinDirective c op p).owed = s.owed ∧
    (s.joinDirective c op p).gains = s.gains ∧ (s.joinDirective c op p).notice = s.notice ∧
    (s.joinDirective c op p).fresh = s.fresh ∧ (s.joinDirective c op p).pending = s.pending := by
  simp [State.joinDirective]

@[simp] theorem requestExchange_frame (c : Cell) :
    (requestExchange c s).straps = s.straps ∧ (requestExchange c s).rx = s.rx ∧ (requestExchange c s).tx = s.tx ∧
    (requestExchange c s).sent = s.sent ∧ (requestExchange c s).delay = s.delay ∧
    (requestExchange c s).filterInput = s.filterInput ∧ (requestExchange c s).slots = s.slots ∧
    (requestExchange c s).progs = s.progs ∧ (requestExchange c s).meters = s.meters ∧
    (requestExchange c s).heldStarts = s.heldStarts ∧ (requestExchange c s).profiles = s.profiles ∧
    (requestExchange c s).laws = s.laws ∧ (requestExchange c s).cues = s.cues ∧ (requestExchange c s).owed = s.owed ∧
    (requestExchange c s).gains = s.gains ∧ (requestExchange c s).notice = s.notice ∧
    (requestExchange c s).fresh = s.fresh ∧ (requestExchange c s).pending = s.pending := by
  unfold requestExchange; (repeat' split) <;> simp

@[simp] theorem requestForce_frame (c : Cell) :
    (requestForce c s).straps = s.straps ∧ (requestForce c s).rx = s.rx ∧ (requestForce c s).tx = s.tx ∧
    (requestForce c s).sent = s.sent ∧ (requestForce c s).delay = s.delay ∧
    (requestForce c s).filterInput = s.filterInput ∧ (requestForce c s).slots = s.slots ∧
    (requestForce c s).progs = s.progs ∧ (requestForce c s).meters = s.meters ∧
    (requestForce c s).heldStarts = s.heldStarts ∧ (requestForce c s).profiles = s.profiles ∧
    (requestForce c s).laws = s.laws ∧ (requestForce c s).cues = s.cues ∧ (requestForce c s).owed = s.owed ∧
    (requestForce c s).gains = s.gains ∧ (requestForce c s).notice = s.notice ∧ (requestForce c s).fresh = s.fresh ∧
    (requestForce c s).pending = s.pending := by
  unfold requestForce; (repeat' split) <;> simp

@[simp] theorem requestRelease_frame (c : Cell) :
    (requestRelease c s).straps = s.straps ∧ (requestRelease c s).rx = s.rx ∧ (requestRelease c s).tx = s.tx ∧
    (requestRelease c s).sent = s.sent ∧ (requestRelease c s).delay = s.delay ∧
    (requestRelease c s).filterInput = s.filterInput ∧ (requestRelease c s).slots = s.slots ∧
    (requestRelease c s).progs = s.progs ∧ (requestRelease c s).meters = s.meters ∧
    (requestRelease c s).heldStarts = s.heldStarts ∧ (requestRelease c s).profiles = s.profiles ∧
    (requestRelease c s).laws = s.laws ∧ (requestRelease c s).cues = s.cues ∧ (requestRelease c s).owed = s.owed ∧
    (requestRelease c s).gains = s.gains ∧ (requestRelease c s).notice = s.notice ∧
    (requestRelease c s).fresh = s.fresh ∧ (requestRelease c s).pending = s.pending := by
  unfold requestRelease; (repeat' split) <;> simp

@[simp] theorem requestProbe_frame (c : Cell) :
    (requestProbe c s).straps = s.straps ∧ (requestProbe c s).rx = s.rx ∧ (requestProbe c s).tx = s.tx ∧
    (requestProbe c s).sent = s.sent ∧ (requestProbe c s).delay = s.delay ∧
    (requestProbe c s).filterInput = s.filterInput ∧ (requestProbe c s).slots = s.slots ∧
    (requestProbe c s).progs = s.progs ∧ (requestProbe c s).meters = s.meters ∧
    (requestProbe c s).heldStarts = s.heldStarts ∧ (requestProbe c s).profiles = s.profiles ∧
    (requestProbe c s).laws = s.laws ∧ (requestProbe c s).lawMark = s.lawMark ∧ (requestProbe c s).engine = s.engine ∧
    (requestProbe c s).cues = s.cues ∧ (requestProbe c s).owed = s.owed ∧ (requestProbe c s).gains = s.gains ∧
    (requestProbe c s).notice = s.notice ∧ (requestProbe c s).fresh = s.fresh ∧
    (requestProbe c s).pending = s.pending := by
  unfold requestProbe; (repeat' split) <;> simp

@[simp] theorem setParticipation_frame (c : Cell) :
    (setParticipation c s).straps = s.straps ∧ (setParticipation c s).rx = s.rx ∧ (setParticipation c s).tx = s.tx ∧
    (setParticipation c s).sent = s.sent ∧ (setParticipation c s).delay = s.delay ∧
    (setParticipation c s).filterInput = s.filterInput ∧ (setParticipation c s).slots = s.slots ∧
    (setParticipation c s).progs = s.progs ∧ (setParticipation c s).meters = s.meters ∧
    (setParticipation c s).heldStarts = s.heldStarts ∧ (setParticipation c s).profiles = s.profiles ∧
    (setParticipation c s).laws = s.laws ∧ (setParticipation c s).lawMark = s.lawMark ∧
    (setParticipation c s).engine = s.engine ∧ (setParticipation c s).cues = s.cues ∧
    (setParticipation c s).owed = s.owed ∧ (setParticipation c s).gains = s.gains ∧
    (setParticipation c s).notice = s.notice ∧ (setParticipation c s).fresh = s.fresh ∧
    (setParticipation c s).pending = s.pending := by
  unfold setParticipation; (repeat' split) <;> simp

@[simp] theorem State.grantAutomatic_frame (op : Operation) (p : Prog) :
    (s.grantAutomatic op p).straps = s.straps ∧ (s.grantAutomatic op p).rx = s.rx ∧ (s.grantAutomatic op p).tx = s.tx ∧
    (s.grantAutomatic op p).sent = s.sent ∧ (s.grantAutomatic op p).delay = s.delay ∧
    (s.grantAutomatic op p).filterInput = s.filterInput ∧ (s.grantAutomatic op p).slots = s.slots ∧
    (s.grantAutomatic op p).progs = s.progs ∧ (s.grantAutomatic op p).heldStarts = s.heldStarts ∧
    (s.grantAutomatic op p).profiles = s.profiles ∧ (s.grantAutomatic op p).laws = s.laws ∧
    (s.grantAutomatic op p).arbiter = s.arbiter ∧ (s.grantAutomatic op p).cues = s.cues ∧
    (s.grantAutomatic op p).owed = s.owed ∧ (s.grantAutomatic op p).gains = s.gains ∧
    (s.grantAutomatic op p).cells = s.cells ∧ (s.grantAutomatic op p).notice = s.notice ∧
    (s.grantAutomatic op p).fresh = s.fresh ∧ (s.grantAutomatic op p).pending = s.pending := by
  refine ⟨rfl, rfl, rfl, rfl, rfl, rfl, rfl, rfl, rfl, rfl, rfl, rfl, rfl, rfl, rfl, rfl, rfl, rfl, rfl⟩

@[simp] theorem State.grantCue_frame (e : Cue) :
    (s.grantCue e).straps = s.straps ∧ (s.grantCue e).rx = s.rx ∧ (s.grantCue e).tx = s.tx ∧
    (s.grantCue e).sent = s.sent ∧ (s.grantCue e).delay = s.delay ∧ (s.grantCue e).filterInput = s.filterInput ∧
    (s.grantCue e).slots = s.slots ∧ (s.grantCue e).progs = s.progs ∧ (s.grantCue e).heldStarts = s.heldStarts ∧
    (s.grantCue e).profiles = s.profiles ∧ (s.grantCue e).laws = s.laws ∧ (s.grantCue e).arbiter = s.arbiter ∧
    (s.grantCue e).owed = s.owed ∧ (s.grantCue e).gains = s.gains ∧ (s.grantCue e).cells = s.cells ∧
    (s.grantCue e).notice = s.notice ∧ (s.grantCue e).fresh = s.fresh ∧ (s.grantCue e).pending = s.pending := by
  refine ⟨rfl, rfl, rfl, rfl, rfl, rfl, rfl, rfl, rfl, rfl, rfl, rfl, rfl, rfl, rfl, rfl, rfl, rfl⟩

@[simp] theorem State.grantProbe_frame (e : ProbeEntry) :
    (s.grantProbe e).straps = s.straps ∧ (s.grantProbe e).rx = s.rx ∧ (s.grantProbe e).tx = s.tx ∧
    (s.grantProbe e).sent = s.sent ∧ (s.grantProbe e).delay = s.delay ∧ (s.grantProbe e).filterInput = s.filterInput ∧
    (s.grantProbe e).slots = s.slots ∧ (s.grantProbe e).progs = s.progs ∧ (s.grantProbe e).meters = s.meters ∧
    (s.grantProbe e).heldStarts = s.heldStarts ∧ (s.grantProbe e).profiles = s.profiles ∧
    (s.grantProbe e).laws = s.laws ∧ (s.grantProbe e).cues = s.cues ∧ (s.grantProbe e).owed = s.owed ∧
    (s.grantProbe e).gains = s.gains ∧ (s.grantProbe e).cells = s.cells ∧ (s.grantProbe e).notice = s.notice ∧
    (s.grantProbe e).fresh = s.fresh ∧ (s.grantProbe e).pending = s.pending := by
  refine ⟨rfl, rfl, rfl, rfl, rfl, rfl, rfl, rfl, rfl, rfl, rfl, rfl, rfl, rfl, rfl, rfl, rfl, rfl, rfl⟩

@[simp] theorem State.abortDirectives_frame :
    s.abortDirectives.straps = s.straps ∧ s.abortDirectives.rx = s.rx ∧ s.abortDirectives.tx = s.tx ∧
    s.abortDirectives.sent = s.sent ∧ s.abortDirectives.delay = s.delay ∧
    s.abortDirectives.filterInput = s.filterInput ∧ s.abortDirectives.slots = s.slots ∧
    s.abortDirectives.progs = s.progs ∧ s.abortDirectives.meters = s.meters ∧
    s.abortDirectives.heldStarts = s.heldStarts ∧ s.abortDirectives.profiles = s.profiles ∧
    s.abortDirectives.laws = s.laws ∧ s.abortDirectives.lawMark = s.lawMark ∧
    s.abortDirectives.engine = s.engine ∧ s.abortDirectives.cues = s.cues ∧ s.abortDirectives.owed = s.owed ∧
    s.abortDirectives.gains = s.gains ∧ s.abortDirectives.notice = s.notice ∧ s.abortDirectives.fresh = s.fresh ∧
    s.abortDirectives.pending = s.pending := by
  refine ⟨rfl, rfl, rfl, rfl, rfl, rfl, rfl, rfl, rfl, rfl, rfl, rfl, rfl, rfl, rfl, rfl, rfl, rfl, rfl, rfl⟩

@[simp] theorem State.grantSets_frame :
    s.grantSets.straps = s.straps ∧ s.grantSets.rx = s.rx ∧ s.grantSets.tx = s.tx ∧ s.grantSets.sent = s.sent ∧
    s.grantSets.delay = s.delay ∧ s.grantSets.filterInput = s.filterInput ∧ s.grantSets.slots = s.slots ∧
    s.grantSets.progs = s.progs ∧ s.grantSets.heldStarts = s.heldStarts ∧ s.grantSets.profiles = s.profiles ∧
    s.grantSets.laws = s.laws ∧ s.grantSets.cues = s.cues ∧ s.grantSets.owed = s.owed ∧
    s.grantSets.gains = s.gains ∧ s.grantSets.cells = s.cells ∧ s.grantSets.notice = s.notice ∧
    s.grantSets.fresh = s.fresh ∧ s.grantSets.pending = s.pending := by
  unfold State.grantSets; (repeat' split) <;> simp

@[simp] theorem State.grantProbeOrSets_frame :
    s.grantProbeOrSets.straps = s.straps ∧ s.grantProbeOrSets.rx = s.rx ∧ s.grantProbeOrSets.tx = s.tx ∧
    s.grantProbeOrSets.sent = s.sent ∧ s.grantProbeOrSets.delay = s.delay ∧
    s.grantProbeOrSets.filterInput = s.filterInput ∧ s.grantProbeOrSets.slots = s.slots ∧
    s.grantProbeOrSets.progs = s.progs ∧ s.grantProbeOrSets.heldStarts = s.heldStarts ∧
    s.grantProbeOrSets.profiles = s.profiles ∧ s.grantProbeOrSets.laws = s.laws ∧
    s.grantProbeOrSets.cues = s.cues ∧ s.grantProbeOrSets.owed = s.owed ∧ s.grantProbeOrSets.gains = s.gains ∧
    s.grantProbeOrSets.notice = s.notice ∧ s.grantProbeOrSets.fresh = s.fresh ∧
    s.grantProbeOrSets.pending = s.pending := by
  unfold State.grantProbeOrSets; (repeat' split) <;> simp

@[simp] theorem State.grantNext_frame :
    s.grantNext.straps = s.straps ∧ s.grantNext.rx = s.rx ∧ s.grantNext.tx = s.tx ∧ s.grantNext.sent = s.sent ∧
    s.grantNext.delay = s.delay ∧ s.grantNext.filterInput = s.filterInput ∧ s.grantNext.slots = s.slots ∧
    s.grantNext.progs = s.progs ∧ s.grantNext.heldStarts = s.heldStarts ∧ s.grantNext.profiles = s.profiles ∧
    s.grantNext.laws = s.laws ∧ s.grantNext.owed = s.owed ∧ s.grantNext.gains = s.gains ∧
    s.grantNext.notice = s.notice ∧ s.grantNext.fresh = s.fresh ∧ s.grantNext.pending = s.pending := by
  unfold State.grantNext; dsimp only; split <;> simp

@[simp] theorem State.discardOperation_frame (op : Operation) :
    (s.discardOperation op).straps = s.straps ∧ (s.discardOperation op).rx = s.rx ∧ (s.discardOperation op).tx = s.tx ∧
    (s.discardOperation op).sent = s.sent ∧ (s.discardOperation op).delay = s.delay ∧
    (s.discardOperation op).filterInput = s.filterInput ∧ (s.discardOperation op).slots = s.slots ∧
    (s.discardOperation op).progs = s.progs ∧ (s.discardOperation op).meters = s.meters ∧
    (s.discardOperation op).heldStarts = s.heldStarts ∧ (s.discardOperation op).profiles = s.profiles ∧
    (s.discardOperation op).laws = s.laws ∧ (s.discardOperation op).lawMark = s.lawMark ∧
    (s.discardOperation op).arbiter = s.arbiter ∧ (s.discardOperation op).engine = s.engine ∧
    (s.discardOperation op).cues = s.cues ∧ (s.discardOperation op).owed = s.owed ∧
    (s.discardOperation op).gains = s.gains ∧ (s.discardOperation op).notice = s.notice ∧
    (s.discardOperation op).fresh = s.fresh ∧ (s.discardOperation op).pending = s.pending := by
  unfold State.discardOperation; (repeat' split) <;> simp

@[simp] theorem completeAutomatic_frame (f : InFlight) :
    (completeAutomatic f s).straps = s.straps ∧ (completeAutomatic f s).rx = s.rx ∧ (completeAutomatic f s).tx = s.tx ∧
    (completeAutomatic f s).sent = s.sent ∧ (completeAutomatic f s).delay = s.delay ∧
    (completeAutomatic f s).filterInput = s.filterInput ∧ (completeAutomatic f s).slots = s.slots ∧
    (completeAutomatic f s).progs = s.progs ∧ (completeAutomatic f s).meters = s.meters ∧
    (completeAutomatic f s).heldStarts = s.heldStarts ∧ (completeAutomatic f s).profiles = s.profiles ∧
    (completeAutomatic f s).laws = s.laws ∧ (completeAutomatic f s).lawMark = s.lawMark ∧
    (completeAutomatic f s).engine = s.engine ∧ (completeAutomatic f s).cues = s.cues ∧
    (completeAutomatic f s).owed = s.owed ∧ (completeAutomatic f s).cells = s.cells ∧
    (completeAutomatic f s).notice = s.notice ∧ (completeAutomatic f s).fresh = s.fresh ∧
    (completeAutomatic f s).pending = s.pending := by
  unfold completeAutomatic; (repeat' split) <;> simp

@[simp] theorem State.profilePart_frame (e : Cue) :
    (s.profilePart e).straps = s.straps ∧ (s.profilePart e).rx = s.rx ∧ (s.profilePart e).tx = s.tx ∧
    (s.profilePart e).sent = s.sent ∧ (s.profilePart e).delay = s.delay ∧
    (s.profilePart e).filterInput = s.filterInput ∧ (s.profilePart e).slots = s.slots ∧
    (s.profilePart e).meters = s.meters ∧ (s.profilePart e).heldStarts = s.heldStarts ∧
    (s.profilePart e).profiles = s.profiles ∧ (s.profilePart e).laws = s.laws ∧ (s.profilePart e).lawMark = s.lawMark ∧
    (s.profilePart e).arbiter = s.arbiter ∧ (s.profilePart e).engine = s.engine ∧ (s.profilePart e).cues = s.cues ∧
    (s.profilePart e).owed = s.owed ∧ (s.profilePart e).cells = s.cells ∧ (s.profilePart e).notice = s.notice ∧
    (s.profilePart e).fresh = s.fresh ∧ (s.profilePart e).pending = s.pending := by
  unfold State.profilePart; (repeat' split) <;> simp

@[simp] theorem completeSegment_frame (e : Cue) (n : Snapshot) :
    (completeSegment e n s).straps = s.straps ∧ (completeSegment e n s).rx = s.rx ∧ (completeSegment e n s).tx = s.tx ∧
    (completeSegment e n s).sent = s.sent ∧ (completeSegment e n s).delay = s.delay ∧
    (completeSegment e n s).filterInput = s.filterInput ∧ (completeSegment e n s).slots = s.slots ∧
    (completeSegment e n s).meters = s.meters ∧ (completeSegment e n s).heldStarts = s.heldStarts ∧
    (completeSegment e n s).profiles = s.profiles ∧ (completeSegment e n s).laws = s.laws ∧
    (completeSegment e n s).lawMark = s.lawMark ∧ (completeSegment e n s).arbiter = s.arbiter ∧
    (completeSegment e n s).engine = s.engine ∧ (completeSegment e n s).cues = s.cues ∧
    (completeSegment e n s).owed = s.owed ∧ (completeSegment e n s).cells = s.cells ∧
    (completeSegment e n s).fresh = s.fresh ∧ (completeSegment e n s).pending = s.pending := by
  unfold completeSegment; dsimp only; (repeat' split) <;> simp

@[simp] theorem completeSwitch_frame (e : Cue) (n : Snapshot) :
    (completeSwitch e n s).straps = s.straps ∧ (completeSwitch e n s).rx = s.rx ∧ (completeSwitch e n s).tx = s.tx ∧
    (completeSwitch e n s).sent = s.sent ∧ (completeSwitch e n s).delay = s.delay ∧
    (completeSwitch e n s).filterInput = s.filterInput ∧ (completeSwitch e n s).slots = s.slots ∧
    (completeSwitch e n s).meters = s.meters ∧ (completeSwitch e n s).heldStarts = s.heldStarts ∧
    (completeSwitch e n s).profiles = s.profiles ∧ (completeSwitch e n s).laws = s.laws ∧
    (completeSwitch e n s).lawMark = s.lawMark ∧ (completeSwitch e n s).arbiter = s.arbiter ∧
    (completeSwitch e n s).engine = s.engine ∧ (completeSwitch e n s).cues = s.cues ∧
    (completeSwitch e n s).owed = s.owed ∧ (completeSwitch e n s).cells = s.cells ∧
    (completeSwitch e n s).fresh = s.fresh ∧ (completeSwitch e n s).pending = s.pending := by
  unfold completeSwitch; (repeat' split) <;> simp

@[simp] theorem completeHold_frame (e : Cue) :
    (completeHold e s).straps = s.straps ∧ (completeHold e s).rx = s.rx ∧ (completeHold e s).tx = s.tx ∧
    (completeHold e s).sent = s.sent ∧ (completeHold e s).delay = s.delay ∧
    (completeHold e s).filterInput = s.filterInput ∧ (completeHold e s).slots = s.slots ∧
    (completeHold e s).meters = s.meters ∧ (completeHold e s).heldStarts = s.heldStarts ∧
    (completeHold e s).profiles = s.profiles ∧ (completeHold e s).laws = s.laws ∧
    (completeHold e s).lawMark = s.lawMark ∧ (completeHold e s).engine = s.engine ∧ (completeHold e s).cues = s.cues ∧
    (completeHold e s).owed = s.owed ∧ (completeHold e s).cells = s.cells ∧ (completeHold e s).fresh = s.fresh ∧
    (completeHold e s).pending = s.pending := by
  unfold completeHold; (repeat' split) <;> simp

@[simp] theorem completeRelease_frame (e : Cue) :
    (completeRelease e s).straps = s.straps ∧ (completeRelease e s).rx = s.rx ∧ (completeRelease e s).tx = s.tx ∧
    (completeRelease e s).sent = s.sent ∧ (completeRelease e s).delay = s.delay ∧
    (completeRelease e s).filterInput = s.filterInput ∧ (completeRelease e s).slots = s.slots ∧
    (completeRelease e s).meters = s.meters ∧ (completeRelease e s).heldStarts = s.heldStarts ∧
    (completeRelease e s).profiles = s.profiles ∧ (completeRelease e s).laws = s.laws ∧
    (completeRelease e s).lawMark = s.lawMark ∧ (completeRelease e s).engine = s.engine ∧
    (completeRelease e s).cues = s.cues ∧ (completeRelease e s).owed = s.owed ∧ (completeRelease e s).gains = s.gains ∧
    (completeRelease e s).cells = s.cells ∧ (completeRelease e s).fresh = s.fresh ∧
    (completeRelease e s).pending = s.pending := by
  unfold completeRelease; (repeat' split) <;> simp

@[simp] theorem completePreset_frame (e : Cue) :
    (completePreset e s).straps = s.straps ∧ (completePreset e s).rx = s.rx ∧ (completePreset e s).tx = s.tx ∧
    (completePreset e s).sent = s.sent ∧ (completePreset e s).delay = s.delay ∧
    (completePreset e s).filterInput = s.filterInput ∧ (completePreset e s).slots = s.slots ∧
    (completePreset e s).meters = s.meters ∧ (completePreset e s).heldStarts = s.heldStarts ∧
    (completePreset e s).profiles = s.profiles ∧ (completePreset e s).laws = s.laws ∧
    (completePreset e s).lawMark = s.lawMark ∧ (completePreset e s).arbiter = s.arbiter ∧
    (completePreset e s).engine = s.engine ∧ (completePreset e s).cues = s.cues ∧ (completePreset e s).owed = s.owed ∧
    (completePreset e s).cells = s.cells ∧ (completePreset e s).fresh = s.fresh ∧
    (completePreset e s).pending = s.pending := by
  unfold completePreset; (repeat' split) <;> simp

@[simp] theorem completeCue_frame (e : Cue) (f : InFlight) :
    (completeCue e f s).straps = s.straps ∧ (completeCue e f s).rx = s.rx ∧ (completeCue e f s).tx = s.tx ∧
    (completeCue e f s).sent = s.sent ∧ (completeCue e f s).delay = s.delay ∧
    (completeCue e f s).filterInput = s.filterInput ∧ (completeCue e f s).slots = s.slots ∧
    (completeCue e f s).meters = s.meters ∧ (completeCue e f s).heldStarts = s.heldStarts ∧
    (completeCue e f s).profiles = s.profiles ∧ (completeCue e f s).laws = s.laws ∧
    (completeCue e f s).lawMark = s.lawMark ∧ (completeCue e f s).engine = s.engine ∧
    (completeCue e f s).cues = s.cues ∧ (completeCue e f s).owed = s.owed ∧ (completeCue e f s).cells = s.cells ∧
    (completeCue e f s).fresh = s.fresh ∧ (completeCue e f s).pending = s.pending := by
  unfold completeCue; (repeat' split) <;> simp

@[simp] theorem completeExchange_frame (x : Option ProfileNo) (n : ProfileNo) (r : Reply) (p : Prog) :
    (completeExchange x n r p s).straps = s.straps ∧ (completeExchange x n r p s).rx = s.rx ∧
    (completeExchange x n r p s).tx = s.tx ∧ (completeExchange x n r p s).sent = s.sent ∧
    (completeExchange x n r p s).delay = s.delay ∧ (completeExchange x n r p s).filterInput = s.filterInput ∧
    (completeExchange x n r p s).slots = s.slots ∧ (completeExchange x n r p s).meters = s.meters ∧
    (completeExchange x n r p s).heldStarts = s.heldStarts ∧ (completeExchange x n r p s).profiles = s.profiles ∧
    (completeExchange x n r p s).laws = s.laws ∧ (completeExchange x n r p s).lawMark = s.lawMark ∧
    (completeExchange x n r p s).engine = s.engine ∧ (completeExchange x n r p s).cues = s.cues ∧
    (completeExchange x n r p s).owed = s.owed ∧ (completeExchange x n r p s).notice = s.notice ∧
    (completeExchange x n r p s).fresh = s.fresh ∧ (completeExchange x n r p s).pending = s.pending := by
  unfold completeExchange; dsimp only; (repeat' split) <;> simp

@[simp] theorem completeForce_frame (g : Int) (b : Bool) (r : Reply) (p : Prog) :
    (completeForce g b r p s).straps = s.straps ∧ (completeForce g b r p s).rx = s.rx ∧
    (completeForce g b r p s).tx = s.tx ∧ (completeForce g b r p s).sent = s.sent ∧
    (completeForce g b r p s).delay = s.delay ∧ (completeForce g b r p s).filterInput = s.filterInput ∧
    (completeForce g b r p s).slots = s.slots ∧ (completeForce g b r p s).meters = s.meters ∧
    (completeForce g b r p s).heldStarts = s.heldStarts ∧ (completeForce g b r p s).profiles = s.profiles ∧
    (completeForce g b r p s).laws = s.laws ∧ (completeForce g b r p s).lawMark = s.lawMark ∧
    (completeForce g b r p s).engine = s.engine ∧ (completeForce g b r p s).cues = s.cues ∧
    (completeForce g b r p s).owed = s.owed ∧ (completeForce g b r p s).notice = s.notice ∧
    (completeForce g b r p s).fresh = s.fresh ∧ (completeForce g b r p s).pending = s.pending := by
  unfold completeForce; dsimp only; (repeat' split) <;> simp

@[simp] theorem completeGainRelease_frame (r : Reply) (p : Prog) :
    (completeGainRelease r p s).straps = s.straps ∧ (completeGainRelease r p s).rx = s.rx ∧
    (completeGainRelease r p s).tx = s.tx ∧ (completeGainRelease r p s).sent = s.sent ∧
    (completeGainRelease r p s).delay = s.delay ∧ (completeGainRelease r p s).filterInput = s.filterInput ∧
    (completeGainRelease r p s).slots = s.slots ∧ (completeGainRelease r p s).meters = s.meters ∧
    (completeGainRelease r p s).heldStarts = s.heldStarts ∧ (completeGainRelease r p s).profiles = s.profiles ∧
    (completeGainRelease r p s).laws = s.laws ∧ (completeGainRelease r p s).lawMark = s.lawMark ∧
    (completeGainRelease r p s).engine = s.engine ∧ (completeGainRelease r p s).cues = s.cues ∧
    (completeGainRelease r p s).owed = s.owed ∧ (completeGainRelease r p s).gains = s.gains ∧
    (completeGainRelease r p s).notice = s.notice ∧ (completeGainRelease r p s).fresh = s.fresh ∧
    (completeGainRelease r p s).pending = s.pending := by
  unfold completeGainRelease; (repeat' split) <;> simp

@[simp] theorem completeDirective_frame (d : DirectiveOp) (r : Reply) (f : InFlight) :
    (completeDirective d r f s).straps = s.straps ∧ (completeDirective d r f s).rx = s.rx ∧
    (completeDirective d r f s).tx = s.tx ∧ (completeDirective d r f s).sent = s.sent ∧
    (completeDirective d r f s).delay = s.delay ∧ (completeDirective d r f s).filterInput = s.filterInput ∧
    (completeDirective d r f s).slots = s.slots ∧ (completeDirective d r f s).meters = s.meters ∧
    (completeDirective d r f s).heldStarts = s.heldStarts ∧ (completeDirective d r f s).profiles = s.profiles ∧
    (completeDirective d r f s).laws = s.laws ∧ (completeDirective d r f s).lawMark = s.lawMark ∧
    (completeDirective d r f s).engine = s.engine ∧ (completeDirective d r f s).cues = s.cues ∧
    (completeDirective d r f s).owed = s.owed ∧ (completeDirective d r f s).notice = s.notice ∧
    (completeDirective d r f s).fresh = s.fresh ∧ (completeDirective d r f s).pending = s.pending := by
  unfold completeDirective; (repeat' split) <;> simp

@[simp] theorem completeProbe_frame (q : ProfileNo) (r : Reply) (f : InFlight) :
    (completeProbe q r f s).straps = s.straps ∧ (completeProbe q r f s).rx = s.rx ∧ (completeProbe q r f s).tx = s.tx ∧
    (completeProbe q r f s).sent = s.sent ∧ (completeProbe q r f s).delay = s.delay ∧
    (completeProbe q r f s).filterInput = s.filterInput ∧ (completeProbe q r f s).slots = s.slots ∧
    (completeProbe q r f s).progs = s.progs ∧ (completeProbe q r f s).meters = s.meters ∧
    (completeProbe q r f s).heldStarts = s.heldStarts ∧ (completeProbe q r f s).profiles = s.profiles ∧
    (completeProbe q r f s).laws = s.laws ∧ (completeProbe q r f s).lawMark = s.lawMark ∧
    (completeProbe q r f s).arbiter = s.arbiter ∧ (completeProbe q r f s).engine = s.engine ∧
    (completeProbe q r f s).cues = s.cues ∧ (completeProbe q r f s).owed = s.owed ∧
    (completeProbe q r f s).gains = s.gains ∧ (completeProbe q r f s).notice = s.notice ∧
    (completeProbe q r f s).fresh = s.fresh ∧ (completeProbe q r f s).pending = s.pending := by
  unfold completeProbe; (repeat' split) <;> simp

@[simp] theorem operationEffects_frame (f : InFlight) :
    (operationEffects f s).straps = s.straps ∧ (operationEffects f s).rx = s.rx ∧ (operationEffects f s).tx = s.tx ∧
    (operationEffects f s).sent = s.sent ∧ (operationEffects f s).delay = s.delay ∧
    (operationEffects f s).filterInput = s.filterInput ∧ (operationEffects f s).slots = s.slots ∧
    (operationEffects f s).meters = s.meters ∧ (operationEffects f s).heldStarts = s.heldStarts ∧
    (operationEffects f s).profiles = s.profiles ∧ (operationEffects f s).laws = s.laws ∧
    (operationEffects f s).lawMark = s.lawMark ∧ (operationEffects f s).engine = s.engine ∧
    (operationEffects f s).cues = s.cues ∧ (operationEffects f s).owed = s.owed ∧
    (operationEffects f s).fresh = s.fresh ∧ (operationEffects f s).pending = s.pending := by
  unfold operationEffects; (repeat' split) <;> simp

@[simp] theorem State.finish_frame (f : InFlight) :
    (s.finish f operationEffects).straps = s.straps ∧ (s.finish f operationEffects).rx = s.rx ∧
    (s.finish f operationEffects).tx = s.tx ∧ (s.finish f operationEffects).sent = s.sent ∧
    (s.finish f operationEffects).delay = s.delay ∧ (s.finish f operationEffects).filterInput = s.filterInput ∧
    (s.finish f operationEffects).slots = s.slots ∧ (s.finish f operationEffects).meters = s.meters ∧
    (s.finish f operationEffects).heldStarts = s.heldStarts ∧ (s.finish f operationEffects).profiles = s.profiles ∧
    (s.finish f operationEffects).laws = s.laws ∧ (s.finish f operationEffects).cues = s.cues ∧
    (s.finish f operationEffects).owed = s.owed ∧ (s.finish f operationEffects).fresh = s.fresh ∧
    (s.finish f operationEffects).pending = s.pending := by
  unfold State.finish; (repeat' split) <;> simp

@[simp] theorem onEngine_frame (k : Operation → Bool) :
    (onEngine k operationEffects s).straps = s.straps ∧ (onEngine k operationEffects s).rx = s.rx ∧
    (onEngine k operationEffects s).tx = s.tx ∧ (onEngine k operationEffects s).sent = s.sent ∧
    (onEngine k operationEffects s).delay = s.delay ∧ (onEngine k operationEffects s).filterInput = s.filterInput ∧
    (onEngine k operationEffects s).slots = s.slots ∧ (onEngine k operationEffects s).meters = s.meters ∧
    (onEngine k operationEffects s).heldStarts = s.heldStarts ∧ (onEngine k operationEffects s).profiles = s.profiles ∧
    (onEngine k operationEffects s).laws = s.laws ∧ (onEngine k operationEffects s).cues = s.cues ∧
    (onEngine k operationEffects s).owed = s.owed ∧ (onEngine k operationEffects s).fresh = s.fresh ∧
    (onEngine k operationEffects s).pending = s.pending := by
  unfold onEngine; (repeat' split) <;> simp

@[simp] theorem State.completeOperation_frame :
    s.completeOperation.straps = s.straps ∧ s.completeOperation.rx = s.rx ∧ s.completeOperation.tx = s.tx ∧
    s.completeOperation.sent = s.sent ∧ s.completeOperation.delay = s.delay ∧
    s.completeOperation.filterInput = s.filterInput ∧ s.completeOperation.slots = s.slots ∧
    s.completeOperation.meters = s.meters ∧ s.completeOperation.heldStarts = s.heldStarts ∧
    s.completeOperation.profiles = s.profiles ∧ s.completeOperation.laws = s.laws ∧
    s.completeOperation.cues = s.cues ∧ s.completeOperation.owed = s.owed ∧ s.completeOperation.fresh = s.fresh ∧
    s.completeOperation.pending = s.pending := by
  unfold State.completeOperation; (repeat' split) <;> simp

/-! ### Stores and Programme Table -/

@[simp] theorem writeProfile_frame (c : Cell) :
    (writeProfile c s).straps = s.straps ∧ (writeProfile c s).rx = s.rx ∧ (writeProfile c s).tx = s.tx ∧
    (writeProfile c s).sent = s.sent ∧ (writeProfile c s).delay = s.delay ∧
    (writeProfile c s).filterInput = s.filterInput ∧ (writeProfile c s).slots = s.slots ∧
    (writeProfile c s).progs = s.progs ∧ (writeProfile c s).meters = s.meters ∧
    (writeProfile c s).heldStarts = s.heldStarts ∧ (writeProfile c s).laws = s.laws ∧
    (writeProfile c s).lawMark = s.lawMark ∧ (writeProfile c s).arbiter = s.arbiter ∧
    (writeProfile c s).engine = s.engine ∧ (writeProfile c s).cues = s.cues ∧ (writeProfile c s).owed = s.owed ∧
    (writeProfile c s).gains = s.gains ∧ (writeProfile c s).notice = s.notice ∧ (writeProfile c s).fresh = s.fresh ∧
    (writeProfile c s).pending = s.pending := by
  unfold writeProfile; (repeat' split) <;> simp

@[simp] theorem loadLaw_frame (c : Cell) :
    (loadLaw c s).straps = s.straps ∧ (loadLaw c s).rx = s.rx ∧ (loadLaw c s).tx = s.tx ∧ (loadLaw c s).sent = s.sent ∧
    (loadLaw c s).delay = s.delay ∧ (loadLaw c s).filterInput = s.filterInput ∧ (loadLaw c s).slots = s.slots ∧
    (loadLaw c s).progs = s.progs ∧ (loadLaw c s).meters = s.meters ∧ (loadLaw c s).heldStarts = s.heldStarts ∧
    (loadLaw c s).profiles = s.profiles ∧ (loadLaw c s).lawMark = s.lawMark ∧ (loadLaw c s).arbiter = s.arbiter ∧
    (loadLaw c s).engine = s.engine ∧ (loadLaw c s).cues = s.cues ∧ (loadLaw c s).owed = s.owed ∧
    (loadLaw c s).gains = s.gains ∧ (loadLaw c s).notice = s.notice ∧ (loadLaw c s).fresh = s.fresh ∧
    (loadLaw c s).pending = s.pending := by
  unfold loadLaw; dsimp only; (repeat' split) <;> simp

@[simp] theorem swapLaws_frame (c : Cell) :
    (swapLaws c s).straps = s.straps ∧ (swapLaws c s).rx = s.rx ∧ (swapLaws c s).tx = s.tx ∧
    (swapLaws c s).sent = s.sent ∧ (swapLaws c s).delay = s.delay ∧ (swapLaws c s).filterInput = s.filterInput ∧
    (swapLaws c s).slots = s.slots ∧ (swapLaws c s).progs = s.progs ∧ (swapLaws c s).meters = s.meters ∧
    (swapLaws c s).heldStarts = s.heldStarts ∧ (swapLaws c s).profiles = s.profiles ∧
    (swapLaws c s).lawMark = s.lawMark ∧ (swapLaws c s).arbiter = s.arbiter ∧ (swapLaws c s).engine = s.engine ∧
    (swapLaws c s).cues = s.cues ∧ (swapLaws c s).owed = s.owed ∧ (swapLaws c s).gains = s.gains ∧
    (swapLaws c s).notice = s.notice ∧ (swapLaws c s).fresh = s.fresh ∧ (swapLaws c s).pending = s.pending := by
  unfold swapLaws; dsimp only; (repeat' split) <;> simp

@[simp] theorem State.swapBoundary_frame :
    s.swapBoundary.straps = s.straps ∧ s.swapBoundary.rx = s.rx ∧ s.swapBoundary.tx = s.tx ∧
    s.swapBoundary.sent = s.sent ∧ s.swapBoundary.delay = s.delay ∧ s.swapBoundary.filterInput = s.filterInput ∧
    s.swapBoundary.slots = s.slots ∧ s.swapBoundary.progs = s.progs ∧ s.swapBoundary.meters = s.meters ∧
    s.swapBoundary.heldStarts = s.heldStarts ∧ s.swapBoundary.profiles = s.profiles ∧
    s.swapBoundary.lawMark = s.lawMark ∧ s.swapBoundary.engine = s.engine ∧ s.swapBoundary.cues = s.cues ∧
    s.swapBoundary.owed = s.owed ∧ s.swapBoundary.gains = s.gains ∧ s.swapBoundary.cells = s.cells ∧
    s.swapBoundary.notice = s.notice ∧ s.swapBoundary.fresh = s.fresh ∧ s.swapBoundary.pending = s.pending := by
  refine ⟨rfl, rfl, rfl, rfl, rfl, rfl, rfl, rfl, rfl, rfl, rfl, rfl, rfl, rfl, rfl, rfl, rfl, rfl, rfl, rfl⟩

@[simp] theorem mapRequest_frame (c : Cell) :
    (mapRequest c s).straps = s.straps ∧ (mapRequest c s).rx = s.rx ∧ (mapRequest c s).tx = s.tx ∧
    (mapRequest c s).sent = s.sent ∧ (mapRequest c s).delay = s.delay ∧ (mapRequest c s).filterInput = s.filterInput ∧
    (mapRequest c s).meters = s.meters ∧ (mapRequest c s).heldStarts = s.heldStarts ∧
    (mapRequest c s).profiles = s.profiles ∧ (mapRequest c s).laws = s.laws ∧ (mapRequest c s).lawMark = s.lawMark ∧
    (mapRequest c s).arbiter = s.arbiter ∧ (mapRequest c s).engine = s.engine ∧ (mapRequest c s).cues = s.cues ∧
    (mapRequest c s).owed = s.owed ∧ (mapRequest c s).gains = s.gains ∧ (mapRequest c s).notice = s.notice ∧
    (mapRequest c s).fresh = s.fresh ∧ (mapRequest c s).pending = s.pending := by
  unfold mapRequest; dsimp only; (repeat' split) <;> simp

@[simp] theorem State.openEffects_frame (p : Prog) (q : ProfileNo) :
    (s.openEffects p q).straps = s.straps ∧ (s.openEffects p q).rx = s.rx ∧ (s.openEffects p q).tx = s.tx ∧
    (s.openEffects p q).sent = s.sent ∧ (s.openEffects p q).delay = s.delay ∧
    (s.openEffects p q).filterInput = s.filterInput ∧ (s.openEffects p q).slots = s.slots ∧
    (s.openEffects p q).heldStarts = s.heldStarts ∧ (s.openEffects p q).profiles = s.profiles ∧
    (s.openEffects p q).laws = s.laws ∧ (s.openEffects p q).lawMark = s.lawMark ∧
    (s.openEffects p q).arbiter = s.arbiter ∧ (s.openEffects p q).engine = s.engine ∧
    (s.openEffects p q).cues = s.cues ∧ (s.openEffects p q).owed = s.owed ∧ (s.openEffects p q).cells = s.cells ∧
    (s.openEffects p q).notice = s.notice ∧ (s.openEffects p q).fresh = s.fresh ∧
    (s.openEffects p q).pending = s.pending := by
  refine ⟨rfl, rfl, rfl, rfl, rfl, rfl, rfl, rfl, rfl, rfl, rfl, rfl, rfl, rfl, rfl, rfl, rfl, rfl, rfl⟩

@[simp] theorem openRequest_frame (c : Cell) :
    (openRequest c s).straps = s.straps ∧ (openRequest c s).rx = s.rx ∧ (openRequest c s).tx = s.tx ∧
    (openRequest c s).sent = s.sent ∧ (openRequest c s).delay = s.delay ∧
    (openRequest c s).filterInput = s.filterInput ∧ (openRequest c s).slots = s.slots ∧
    (openRequest c s).heldStarts = s.heldStarts ∧ (openRequest c s).profiles = s.profiles ∧
    (openRequest c s).laws = s.laws ∧ (openRequest c s).lawMark = s.lawMark ∧ (openRequest c s).arbiter = s.arbiter ∧
    (openRequest c s).engine = s.engine ∧ (openRequest c s).cues = s.cues ∧ (openRequest c s).owed = s.owed ∧
    (openRequest c s).notice = s.notice ∧ (openRequest c s).fresh = s.fresh ∧ (openRequest c s).pending = s.pending := by
  unfold openRequest; (repeat' split) <;> simp

@[simp] theorem State.tearDown_frame (p : Prog) :
    (s.tearDown p).straps = s.straps ∧ (s.tearDown p).rx = s.rx ∧ (s.tearDown p).tx = s.tx ∧
    (s.tearDown p).sent = s.sent ∧ (s.tearDown p).delay = s.delay ∧ (s.tearDown p).filterInput = s.filterInput ∧
    (s.tearDown p).profiles = s.profiles ∧ (s.tearDown p).laws = s.laws ∧ (s.tearDown p).lawMark = s.lawMark ∧
    (s.tearDown p).cells = s.cells ∧ (s.tearDown p).fresh = s.fresh ∧ (s.tearDown p).pending = s.pending := by
  simp [State.tearDown]

@[simp] theorem State.startHeldSegment_frame (p : Prog) :
    (s.startHeldSegment p).straps = s.straps ∧ (s.startHeldSegment p).rx = s.rx ∧ (s.startHeldSegment p).tx = s.tx ∧
    (s.startHeldSegment p).sent = s.sent ∧ (s.startHeldSegment p).delay = s.delay ∧
    (s.startHeldSegment p).filterInput = s.filterInput ∧ (s.startHeldSegment p).slots = s.slots ∧
    (s.startHeldSegment p).heldStarts = s.heldStarts ∧ (s.startHeldSegment p).profiles = s.profiles ∧
    (s.startHeldSegment p).laws = s.laws ∧ (s.startHeldSegment p).lawMark = s.lawMark ∧
    (s.startHeldSegment p).arbiter = s.arbiter ∧ (s.startHeldSegment p).engine = s.engine ∧
    (s.startHeldSegment p).cues = s.cues ∧ (s.startHeldSegment p).owed = s.owed ∧
    (s.startHeldSegment p).gains = s.gains ∧ (s.startHeldSegment p).cells = s.cells ∧
    (s.startHeldSegment p).notice = s.notice ∧ (s.startHeldSegment p).fresh = s.fresh ∧
    (s.startHeldSegment p).pending = s.pending := by
  unfold State.startHeldSegment; (repeat' split) <;> simp

@[simp] theorem State.reportEmptied_frame (p : Prog) :
    (s.reportEmptied p).straps = s.straps ∧ (s.reportEmptied p).rx = s.rx ∧ (s.reportEmptied p).tx = s.tx ∧
    (s.reportEmptied p).sent = s.sent ∧ (s.reportEmptied p).delay = s.delay ∧
    (s.reportEmptied p).filterInput = s.filterInput ∧ (s.reportEmptied p).slots = s.slots ∧
    (s.reportEmptied p).progs = s.progs ∧ (s.reportEmptied p).meters = s.meters ∧
    (s.reportEmptied p).heldStarts = s.heldStarts ∧ (s.reportEmptied p).profiles = s.profiles ∧
    (s.reportEmptied p).laws = s.laws ∧ (s.reportEmptied p).cues = s.cues ∧ (s.reportEmptied p).owed = s.owed ∧
    (s.reportEmptied p).gains = s.gains ∧ (s.reportEmptied p).cells = s.cells ∧ (s.reportEmptied p).notice = s.notice ∧
    (s.reportEmptied p).pending = s.pending := by
  unfold State.reportEmptied; (repeat' split) <;> simp

@[simp] theorem State.closeEffects_frame (p : Prog) :
    (s.closeEffects p).straps = s.straps ∧ (s.closeEffects p).rx = s.rx ∧ (s.closeEffects p).tx = s.tx ∧
    (s.closeEffects p).sent = s.sent ∧ (s.closeEffects p).delay = s.delay ∧
    (s.closeEffects p).filterInput = s.filterInput ∧ (s.closeEffects p).profiles = s.profiles ∧
    (s.closeEffects p).laws = s.laws ∧ (s.closeEffects p).cells = s.cells ∧ (s.closeEffects p).pending = s.pending := by
  unfold State.closeEffects; simp

@[simp] theorem closeRequest_frame (c : Cell) :
    (closeRequest c s).straps = s.straps ∧ (closeRequest c s).rx = s.rx ∧ (closeRequest c s).tx = s.tx ∧
    (closeRequest c s).sent = s.sent ∧ (closeRequest c s).delay = s.delay ∧
    (closeRequest c s).filterInput = s.filterInput ∧ (closeRequest c s).profiles = s.profiles ∧
    (closeRequest c s).laws = s.laws ∧ (closeRequest c s).pending = s.pending := by
  unfold closeRequest; (repeat' split) <;> simp

@[simp] theorem readPresence_frame (c : Cell) :
    (readPresence c s).straps = s.straps ∧ (readPresence c s).rx = s.rx ∧ (readPresence c s).tx = s.tx ∧
    (readPresence c s).sent = s.sent ∧ (readPresence c s).delay = s.delay ∧
    (readPresence c s).filterInput = s.filterInput ∧ (readPresence c s).slots = s.slots ∧
    (readPresence c s).meters = s.meters ∧ (readPresence c s).heldStarts = s.heldStarts ∧
    (readPresence c s).profiles = s.profiles ∧ (readPresence c s).laws = s.laws ∧
    (readPresence c s).lawMark = s.lawMark ∧ (readPresence c s).arbiter = s.arbiter ∧
    (readPresence c s).engine = s.engine ∧ (readPresence c s).cues = s.cues ∧ (readPresence c s).owed = s.owed ∧
    (readPresence c s).gains = s.gains ∧ (readPresence c s).notice = s.notice ∧ (readPresence c s).fresh = s.fresh ∧
    (readPresence c s).pending = s.pending := by
  unfold readPresence; simp

@[simp] theorem resetSegment_frame (c : Cell) :
    (resetSegment c s).straps = s.straps ∧ (resetSegment c s).rx = s.rx ∧ (resetSegment c s).tx = s.tx ∧
    (resetSegment c s).sent = s.sent ∧ (resetSegment c s).delay = s.delay ∧
    (resetSegment c s).filterInput = s.filterInput ∧ (resetSegment c s).slots = s.slots ∧
    (resetSegment c s).progs = s.progs ∧ (resetSegment c s).heldStarts = s.heldStarts ∧
    (resetSegment c s).profiles = s.profiles ∧ (resetSegment c s).laws = s.laws ∧
    (resetSegment c s).lawMark = s.lawMark ∧ (resetSegment c s).arbiter = s.arbiter ∧
    (resetSegment c s).engine = s.engine ∧ (resetSegment c s).cues = s.cues ∧ (resetSegment c s).owed = s.owed ∧
    (resetSegment c s).gains = s.gains ∧ (resetSegment c s).notice = s.notice ∧ (resetSegment c s).fresh = s.fresh ∧
    (resetSegment c s).pending = s.pending := by
  unfold resetSegment; (repeat' split) <;> simp

@[simp] theorem readTable_frame (c : Cell) :
    (readTable c s).straps = s.straps ∧ (readTable c s).rx = s.rx ∧ (readTable c s).tx = s.tx ∧
    (readTable c s).sent = s.sent ∧ (readTable c s).delay = s.delay ∧ (readTable c s).filterInput = s.filterInput ∧
    (readTable c s).slots = s.slots ∧ (readTable c s).progs = s.progs ∧ (readTable c s).meters = s.meters ∧
    (readTable c s).heldStarts = s.heldStarts ∧ (readTable c s).profiles = s.profiles ∧ (readTable c s).laws = s.laws ∧
    (readTable c s).lawMark = s.lawMark ∧ (readTable c s).arbiter = s.arbiter ∧ (readTable c s).engine = s.engine ∧
    (readTable c s).cues = s.cues ∧ (readTable c s).owed = s.owed ∧ (readTable c s).gains = s.gains ∧
    (readTable c s).notice = s.notice ∧ (readTable c s).pending = s.pending := by
  unfold readTable; dsimp only; (repeat' split) <;> simp

/-! ### Cell Handler -/

@[simp] theorem State.dropCell_frame :
    s.dropCell.straps = s.straps ∧ s.dropCell.rx = s.rx ∧ s.dropCell.tx = s.tx ∧ s.dropCell.sent = s.sent ∧
    s.dropCell.delay = s.delay ∧ s.dropCell.filterInput = s.filterInput ∧ s.dropCell.slots = s.slots ∧
    s.dropCell.progs = s.progs ∧ s.dropCell.meters = s.meters ∧ s.dropCell.heldStarts = s.heldStarts ∧
    s.dropCell.profiles = s.profiles ∧ s.dropCell.laws = s.laws ∧ s.dropCell.lawMark = s.lawMark ∧
    s.dropCell.arbiter = s.arbiter ∧ s.dropCell.engine = s.engine ∧ s.dropCell.cues = s.cues ∧
    s.dropCell.owed = s.owed ∧ s.dropCell.gains = s.gains ∧ s.dropCell.fresh = s.fresh ∧
    s.dropCell.pending = s.pending := by
  unfold State.dropCell; (repeat' split) <;> simp

@[simp] theorem State.joinRequests_frame (c : Cell) :
    (s.joinRequests c).straps = s.straps ∧ (s.joinRequests c).rx = s.rx ∧ (s.joinRequests c).tx = s.tx ∧
    (s.joinRequests c).sent = s.sent ∧ (s.joinRequests c).delay = s.delay ∧
    (s.joinRequests c).filterInput = s.filterInput ∧ (s.joinRequests c).slots = s.slots ∧
    (s.joinRequests c).progs = s.progs ∧ (s.joinRequests c).meters = s.meters ∧
    (s.joinRequests c).heldStarts = s.heldStarts ∧ (s.joinRequests c).profiles = s.profiles ∧
    (s.joinRequests c).laws = s.laws ∧ (s.joinRequests c).lawMark = s.lawMark ∧ (s.joinRequests c).arbiter = s.arbiter ∧
    (s.joinRequests c).engine = s.engine ∧ (s.joinRequests c).cues = s.cues ∧ (s.joinRequests c).owed = s.owed ∧
    (s.joinRequests c).gains = s.gains ∧ (s.joinRequests c).fresh = s.fresh ∧ (s.joinRequests c).pending = s.pending := by
  unfold State.joinRequests; (repeat' split) <;> simp

@[simp] theorem State.joinForward_frame (c : Cell) :
    (s.joinForward c).straps = s.straps ∧ (s.joinForward c).rx = s.rx ∧ (s.joinForward c).tx = s.tx ∧
    (s.joinForward c).sent = s.sent ∧ (s.joinForward c).delay = s.delay ∧
    (s.joinForward c).filterInput = s.filterInput ∧ (s.joinForward c).slots = s.slots ∧
    (s.joinForward c).progs = s.progs ∧ (s.joinForward c).meters = s.meters ∧
    (s.joinForward c).heldStarts = s.heldStarts ∧ (s.joinForward c).profiles = s.profiles ∧
    (s.joinForward c).laws = s.laws ∧ (s.joinForward c).lawMark = s.lawMark ∧ (s.joinForward c).arbiter = s.arbiter ∧
    (s.joinForward c).engine = s.engine ∧ (s.joinForward c).cues = s.cues ∧ (s.joinForward c).owed = s.owed ∧
    (s.joinForward c).gains = s.gains ∧ (s.joinForward c).fresh = s.fresh ∧ (s.joinForward c).pending = s.pending := by
  unfold State.joinForward; (repeat' split) <;> simp

@[simp] theorem State.joinBoth_frame (c : Cell) :
    (s.joinBoth c).straps = s.straps ∧ (s.joinBoth c).rx = s.rx ∧ (s.joinBoth c).tx = s.tx ∧
    (s.joinBoth c).sent = s.sent ∧ (s.joinBoth c).delay = s.delay ∧ (s.joinBoth c).filterInput = s.filterInput ∧
    (s.joinBoth c).slots = s.slots ∧ (s.joinBoth c).progs = s.progs ∧ (s.joinBoth c).meters = s.meters ∧
    (s.joinBoth c).heldStarts = s.heldStarts ∧ (s.joinBoth c).profiles = s.profiles ∧ (s.joinBoth c).laws = s.laws ∧
    (s.joinBoth c).lawMark = s.lawMark ∧ (s.joinBoth c).arbiter = s.arbiter ∧ (s.joinBoth c).engine = s.engine ∧
    (s.joinBoth c).cues = s.cues ∧ (s.joinBoth c).owed = s.owed ∧ (s.joinBoth c).gains = s.gains ∧
    (s.joinBoth c).fresh = s.fresh ∧ (s.joinBoth c).pending = s.pending := by
  unfold State.joinBoth; (repeat' split) <;> simp

@[simp] theorem State.arriveCell_frame (c : Cell) :
    (s.arriveCell c).straps = s.straps ∧ (s.arriveCell c).rx = s.rx ∧ (s.arriveCell c).tx = s.tx ∧
    (s.arriveCell c).sent = s.sent ∧ (s.arriveCell c).delay = s.delay ∧ (s.arriveCell c).filterInput = s.filterInput ∧
    (s.arriveCell c).slots = s.slots ∧ (s.arriveCell c).progs = s.progs ∧ (s.arriveCell c).meters = s.meters ∧
    (s.arriveCell c).heldStarts = s.heldStarts ∧ (s.arriveCell c).profiles = s.profiles ∧
    (s.arriveCell c).laws = s.laws ∧ (s.arriveCell c).lawMark = s.lawMark ∧ (s.arriveCell c).arbiter = s.arbiter ∧
    (s.arriveCell c).engine = s.engine ∧ (s.arriveCell c).cues = s.cues ∧ (s.arriveCell c).owed = s.owed ∧
    (s.arriveCell c).gains = s.gains ∧ (s.arriveCell c).fresh = s.fresh ∧ (s.arriveCell c).pending = s.pending := by
  unfold State.arriveCell; (repeat' split) <;> simp

@[simp] theorem takeRequest_frame :
    (takeRequest s).straps = s.straps ∧ (takeRequest s).rx = s.rx ∧ (takeRequest s).tx = s.tx ∧
    (takeRequest s).sent = s.sent ∧ (takeRequest s).delay = s.delay ∧ (takeRequest s).filterInput = s.filterInput ∧
    (takeRequest s).slots = s.slots ∧ (takeRequest s).progs = s.progs ∧ (takeRequest s).meters = s.meters ∧
    (takeRequest s).heldStarts = s.heldStarts ∧ (takeRequest s).profiles = s.profiles ∧ (takeRequest s).laws = s.laws ∧
    (takeRequest s).lawMark = s.lawMark ∧ (takeRequest s).arbiter = s.arbiter ∧ (takeRequest s).engine = s.engine ∧
    (takeRequest s).cues = s.cues ∧ (takeRequest s).owed = s.owed ∧ (takeRequest s).gains = s.gains ∧
    (takeRequest s).notice = s.notice ∧ (takeRequest s).fresh = s.fresh ∧ (takeRequest s).pending = s.pending := by
  unfold takeRequest; (repeat' split) <;> simp

@[simp] theorem answerUnknown_frame :
    (answerUnknown s).straps = s.straps ∧ (answerUnknown s).rx = s.rx ∧ (answerUnknown s).tx = s.tx ∧
    (answerUnknown s).sent = s.sent ∧ (answerUnknown s).delay = s.delay ∧
    (answerUnknown s).filterInput = s.filterInput ∧ (answerUnknown s).slots = s.slots ∧
    (answerUnknown s).progs = s.progs ∧ (answerUnknown s).meters = s.meters ∧
    (answerUnknown s).heldStarts = s.heldStarts ∧ (answerUnknown s).profiles = s.profiles ∧
    (answerUnknown s).laws = s.laws ∧ (answerUnknown s).lawMark = s.lawMark ∧ (answerUnknown s).arbiter = s.arbiter ∧
    (answerUnknown s).engine = s.engine ∧ (answerUnknown s).cues = s.cues ∧ (answerUnknown s).owed = s.owed ∧
    (answerUnknown s).gains = s.gains ∧ (answerUnknown s).notice = s.notice ∧ (answerUnknown s).fresh = s.fresh ∧
    (answerUnknown s).pending = s.pending := by
  unfold answerUnknown; (repeat' split) <;> simp

@[simp] theorem clearConditions_frame (c : Cell) :
    (clearConditions c s).straps = s.straps ∧ (clearConditions c s).rx = s.rx ∧ (clearConditions c s).tx = s.tx ∧
    (clearConditions c s).sent = s.sent ∧ (clearConditions c s).delay = s.delay ∧
    (clearConditions c s).filterInput = s.filterInput ∧ (clearConditions c s).slots = s.slots ∧
    (clearConditions c s).progs = s.progs ∧ (clearConditions c s).meters = s.meters ∧
    (clearConditions c s).heldStarts = s.heldStarts ∧ (clearConditions c s).profiles = s.profiles ∧
    (clearConditions c s).laws = s.laws ∧ (clearConditions c s).lawMark = s.lawMark ∧
    (clearConditions c s).arbiter = s.arbiter ∧ (clearConditions c s).engine = s.engine ∧
    (clearConditions c s).cues = s.cues ∧ (clearConditions c s).owed = s.owed ∧ (clearConditions c s).gains = s.gains ∧
    (clearConditions c s).fresh = s.fresh ∧ (clearConditions c s).pending = s.pending := by
  unfold clearConditions; (repeat' split) <;> simp

@[simp] theorem setNotice_frame (c : Cell) :
    (setNotice c s).straps = s.straps ∧ (setNotice c s).rx = s.rx ∧ (setNotice c s).tx = s.tx ∧
    (setNotice c s).sent = s.sent ∧ (setNotice c s).delay = s.delay ∧ (setNotice c s).filterInput = s.filterInput ∧
    (setNotice c s).slots = s.slots ∧ (setNotice c s).progs = s.progs ∧ (setNotice c s).meters = s.meters ∧
    (setNotice c s).heldStarts = s.heldStarts ∧ (setNotice c s).profiles = s.profiles ∧ (setNotice c s).laws = s.laws ∧
    (setNotice c s).lawMark = s.lawMark ∧ (setNotice c s).arbiter = s.arbiter ∧ (setNotice c s).engine = s.engine ∧
    (setNotice c s).cues = s.cues ∧ (setNotice c s).owed = s.owed ∧ (setNotice c s).gains = s.gains ∧
    (setNotice c s).fresh = s.fresh ∧ (setNotice c s).pending = s.pending := by
  unfold setNotice; (repeat' split) <;> simp

@[simp] theorem restartPart_frame (c : Cell) :
    (restartPart c s).straps = s.straps ∧ (restartPart c s).rx = s.rx ∧ (restartPart c s).sent = s.sent ∧
    (restartPart c s).delay = s.delay ∧ (restartPart c s).filterInput = s.filterInput ∧
    (restartPart c s).profiles = s.profiles ∧ (restartPart c s).laws = s.laws ∧ (restartPart c s).fresh = s.fresh ∧
    (restartPart c s).pending = s.pending := by
  refine ⟨rfl, rfl, rfl, rfl, rfl, rfl, rfl, rfl, rfl⟩

/-! ### Link -/

@[simp] theorem State.startOutbound_frame (t : LinkTime) :
    (s.startOutbound t).straps = s.straps ∧ (s.startOutbound t).rx = s.rx ∧ (s.startOutbound t).sent = s.sent ∧
    (s.startOutbound t).delay = s.delay ∧ (s.startOutbound t).filterInput = s.filterInput ∧
    (s.startOutbound t).slots = s.slots ∧ (s.startOutbound t).progs = s.progs ∧ (s.startOutbound t).meters = s.meters ∧
    (s.startOutbound t).heldStarts = s.heldStarts ∧ (s.startOutbound t).profiles = s.profiles ∧
    (s.startOutbound t).laws = s.laws ∧ (s.startOutbound t).lawMark = s.lawMark ∧
    (s.startOutbound t).arbiter = s.arbiter ∧ (s.startOutbound t).engine = s.engine ∧
    (s.startOutbound t).cues = s.cues ∧ (s.startOutbound t).owed = s.owed ∧ (s.startOutbound t).gains = s.gains ∧
    (s.startOutbound t).cells = s.cells ∧ (s.startOutbound t).fresh = s.fresh ∧
    (s.startOutbound t).pending = s.pending := by
  refine ⟨rfl, rfl, rfl, rfl, rfl, rfl, rfl, rfl, rfl, rfl, rfl, rfl, rfl, rfl, rfl, rfl, rfl, rfl, rfl, rfl⟩

@[simp] theorem State.sentReport_frame (c : CellSource) :
    (s.sentReport c).straps = s.straps ∧ (s.sentReport c).rx = s.rx ∧ (s.sentReport c).tx = s.tx ∧
    (s.sentReport c).sent = s.sent ∧ (s.sentReport c).delay = s.delay ∧ (s.sentReport c).filterInput = s.filterInput ∧
    (s.sentReport c).slots = s.slots ∧ (s.sentReport c).progs = s.progs ∧ (s.sentReport c).meters = s.meters ∧
    (s.sentReport c).heldStarts = s.heldStarts ∧ (s.sentReport c).profiles = s.profiles ∧
    (s.sentReport c).laws = s.laws ∧ (s.sentReport c).lawMark = s.lawMark ∧ (s.sentReport c).arbiter = s.arbiter ∧
    (s.sentReport c).engine = s.engine ∧ (s.sentReport c).cues = s.cues ∧ (s.sentReport c).owed = s.owed ∧
    (s.sentReport c).gains = s.gains ∧ (s.sentReport c).fresh = s.fresh ∧ (s.sentReport c).pending = s.pending := by
  unfold State.sentReport; (repeat' split) <;> simp

@[simp] theorem State.sendFrame_frame (x : Samples) :
    (s.sendFrame x).straps = s.straps ∧ (s.sendFrame x).rx = s.rx ∧ (s.sendFrame x).delay = s.delay ∧
    (s.sendFrame x).filterInput = s.filterInput ∧ (s.sendFrame x).slots = s.slots ∧ (s.sendFrame x).progs = s.progs ∧
    (s.sendFrame x).meters = s.meters ∧ (s.sendFrame x).heldStarts = s.heldStarts ∧
    (s.sendFrame x).profiles = s.profiles ∧ (s.sendFrame x).laws = s.laws ∧ (s.sendFrame x).lawMark = s.lawMark ∧
    (s.sendFrame x).arbiter = s.arbiter ∧ (s.sendFrame x).engine = s.engine ∧ (s.sendFrame x).cues = s.cues ∧
    (s.sendFrame x).owed = s.owed ∧ (s.sendFrame x).gains = s.gains ∧ (s.sendFrame x).cells = s.cells ∧
    (s.sendFrame x).notice = s.notice ∧ (s.sendFrame x).pending = s.pending := by
  unfold State.sendFrame; (repeat' split) <;> simp

@[simp] theorem State.loseLock_frame :
    s.loseLock.straps = s.straps ∧ s.loseLock.tx = s.tx ∧ s.loseLock.sent = s.sent ∧
    s.loseLock.delay = s.delay ∧ s.loseLock.filterInput = s.filterInput ∧ s.loseLock.slots = s.slots ∧
    s.loseLock.progs = s.progs ∧ s.loseLock.heldStarts = s.heldStarts ∧ s.loseLock.profiles = s.profiles ∧
    s.loseLock.laws = s.laws ∧ s.loseLock.lawMark = s.lawMark ∧ s.loseLock.arbiter = s.arbiter ∧
    s.loseLock.engine = s.engine ∧ s.loseLock.cues = s.cues ∧ s.loseLock.owed = s.owed ∧
    s.loseLock.cells = s.cells ∧ s.loseLock.fresh = s.fresh ∧ s.loseLock.pending = s.pending := by
  unfold State.loseLock; dsimp only; split <;> simp

@[simp] theorem State.headerError_frame :
    s.headerError.straps = s.straps ∧ s.headerError.tx = s.tx ∧ s.headerError.sent = s.sent ∧
    s.headerError.delay = s.delay ∧ s.headerError.filterInput = s.filterInput ∧ s.headerError.slots = s.slots ∧
    s.headerError.progs = s.progs ∧ s.headerError.heldStarts = s.heldStarts ∧
    s.headerError.profiles = s.profiles ∧ s.headerError.laws = s.laws ∧ s.headerError.lawMark = s.lawMark ∧
    s.headerError.arbiter = s.arbiter ∧ s.headerError.engine = s.engine ∧ s.headerError.cues = s.cues ∧
    s.headerError.owed = s.owed ∧ s.headerError.fresh = s.fresh ∧ s.headerError.pending = s.pending := by
  unfold State.headerError; dsimp only; split <;> simp

@[simp] theorem State.takeTimeout_frame :
    s.takeTimeout.straps = s.straps ∧ s.takeTimeout.tx = s.tx ∧ s.takeTimeout.sent = s.sent ∧
    s.takeTimeout.delay = s.delay ∧ s.takeTimeout.filterInput = s.filterInput ∧ s.takeTimeout.slots = s.slots ∧
    s.takeTimeout.progs = s.progs ∧ s.takeTimeout.heldStarts = s.heldStarts ∧
    s.takeTimeout.profiles = s.profiles ∧ s.takeTimeout.laws = s.laws ∧ s.takeTimeout.lawMark = s.lawMark ∧
    s.takeTimeout.arbiter = s.arbiter ∧ s.takeTimeout.engine = s.engine ∧ s.takeTimeout.cues = s.cues ∧
    s.takeTimeout.owed = s.owed ∧ s.takeTimeout.fresh = s.fresh ∧ s.takeTimeout.pending = s.pending := by
  unfold State.takeTimeout; (repeat' split) <;> simp

@[simp] theorem State.takeOwedTimeout_frame :
    s.takeOwedTimeout.straps = s.straps ∧ s.takeOwedTimeout.tx = s.tx ∧ s.takeOwedTimeout.sent = s.sent ∧
    s.takeOwedTimeout.delay = s.delay ∧ s.takeOwedTimeout.filterInput = s.filterInput ∧
    s.takeOwedTimeout.slots = s.slots ∧ s.takeOwedTimeout.progs = s.progs ∧
    s.takeOwedTimeout.heldStarts = s.heldStarts ∧ s.takeOwedTimeout.profiles = s.profiles ∧
    s.takeOwedTimeout.laws = s.laws ∧ s.takeOwedTimeout.lawMark = s.lawMark ∧
    s.takeOwedTimeout.arbiter = s.arbiter ∧ s.takeOwedTimeout.engine = s.engine ∧
    s.takeOwedTimeout.cues = s.cues ∧ s.takeOwedTimeout.owed = s.owed ∧ s.takeOwedTimeout.fresh = s.fresh ∧
    s.takeOwedTimeout.pending = s.pending := by
  unfold State.takeOwedTimeout; (repeat' split) <;> simp

@[simp] theorem State.sendSilence_frame :
    s.sendSilence.straps = s.straps ∧ s.sendSilence.rx = s.rx ∧ s.sendSilence.delay = s.delay ∧
    s.sendSilence.filterInput = s.filterInput ∧ s.sendSilence.slots = s.slots ∧ s.sendSilence.progs = s.progs ∧
    s.sendSilence.meters = s.meters ∧ s.sendSilence.heldStarts = s.heldStarts ∧
    s.sendSilence.profiles = s.profiles ∧ s.sendSilence.laws = s.laws ∧ s.sendSilence.lawMark = s.lawMark ∧
    s.sendSilence.arbiter = s.arbiter ∧ s.sendSilence.engine = s.engine ∧ s.sendSilence.cues = s.cues ∧
    s.sendSilence.owed = s.owed ∧ s.sendSilence.gains = s.gains ∧ s.sendSilence.pending = s.pending := by
  unfold State.sendSilence; dsimp only; (repeat' split) <;> simp

@[simp] theorem State.onePeriod_frame :
    s.onePeriod.straps = s.straps ∧ s.onePeriod.delay = s.delay ∧ s.onePeriod.filterInput = s.filterInput ∧
    s.onePeriod.slots = s.slots ∧ s.onePeriod.progs = s.progs ∧ s.onePeriod.meters = s.meters ∧
    s.onePeriod.heldStarts = s.heldStarts ∧ s.onePeriod.profiles = s.profiles ∧ s.onePeriod.laws = s.laws ∧
    s.onePeriod.lawMark = s.lawMark ∧ s.onePeriod.arbiter = s.arbiter ∧ s.onePeriod.engine = s.engine ∧
    s.onePeriod.cues = s.cues ∧ s.onePeriod.owed = s.owed ∧ s.onePeriod.gains = s.gains ∧
    s.onePeriod.pending = s.pending := by
  unfold State.onePeriod; (repeat' split) <;> simp

@[simp] theorem State.passPeriods_frame (n : Nat) :
    (s.passPeriods n).straps = s.straps ∧ (s.passPeriods n).delay = s.delay ∧
    (s.passPeriods n).filterInput = s.filterInput ∧ (s.passPeriods n).slots = s.slots ∧
    (s.passPeriods n).progs = s.progs ∧ (s.passPeriods n).meters = s.meters ∧
    (s.passPeriods n).heldStarts = s.heldStarts ∧ (s.passPeriods n).profiles = s.profiles ∧
    (s.passPeriods n).laws = s.laws ∧ (s.passPeriods n).lawMark = s.lawMark ∧ (s.passPeriods n).arbiter = s.arbiter ∧
    (s.passPeriods n).engine = s.engine ∧ (s.passPeriods n).cues = s.cues ∧ (s.passPeriods n).owed = s.owed ∧
    (s.passPeriods n).gains = s.gains ∧ (s.passPeriods n).pending = s.pending := by
  induction n generalizing s with
  | zero => simp [State.passPeriods]
  | succ n ih => rw [State.passPeriods]; simp [ih]

@[simp] theorem missFrames_frame :
    (missFrames s).straps = s.straps ∧ (missFrames s).delay = s.delay ∧ (missFrames s).filterInput = s.filterInput ∧
    (missFrames s).slots = s.slots ∧ (missFrames s).progs = s.progs ∧ (missFrames s).heldStarts = s.heldStarts ∧
    (missFrames s).profiles = s.profiles ∧ (missFrames s).laws = s.laws ∧ (missFrames s).lawMark = s.lawMark ∧
    (missFrames s).arbiter = s.arbiter ∧ (missFrames s).engine = s.engine ∧ (missFrames s).cues = s.cues ∧
    (missFrames s).owed = s.owed ∧ (missFrames s).pending = s.pending := by
  unfold missFrames; (repeat' split) <;> simp

@[simp] theorem State.settleBeforeBoundary_frame :
    s.settleBeforeBoundary.straps = s.straps ∧ s.settleBeforeBoundary.rx = s.rx ∧
    s.settleBeforeBoundary.tx = s.tx ∧ s.settleBeforeBoundary.sent = s.sent ∧
    s.settleBeforeBoundary.delay = s.delay ∧ s.settleBeforeBoundary.filterInput = s.filterInput ∧
    s.settleBeforeBoundary.slots = s.slots ∧ s.settleBeforeBoundary.profiles = s.profiles ∧
    s.settleBeforeBoundary.laws = s.laws ∧ s.settleBeforeBoundary.cues = s.cues ∧
    s.settleBeforeBoundary.owed = s.owed ∧ s.settleBeforeBoundary.fresh = s.fresh ∧
    s.settleBeforeBoundary.pending = s.pending := by
  unfold State.settleBeforeBoundary; dsimp only; (repeat' split) <;> simp

@[simp] theorem State.countBoundary_frame :
    s.countBoundary.straps = s.straps ∧ s.countBoundary.rx = s.rx ∧ s.countBoundary.tx = s.tx ∧
    s.countBoundary.sent = s.sent ∧ s.countBoundary.delay = s.delay ∧
    s.countBoundary.filterInput = s.filterInput ∧ s.countBoundary.slots = s.slots ∧
    s.countBoundary.progs = s.progs ∧ s.countBoundary.meters = s.meters ∧
    s.countBoundary.heldStarts = s.heldStarts ∧ s.countBoundary.profiles = s.profiles ∧
    s.countBoundary.laws = s.laws ∧ s.countBoundary.lawMark = s.lawMark ∧ s.countBoundary.arbiter = s.arbiter ∧
    s.countBoundary.cues = s.cues ∧ s.countBoundary.owed = s.owed ∧ s.countBoundary.gains = s.gains ∧
    s.countBoundary.cells = s.cells ∧ s.countBoundary.notice = s.notice ∧ s.countBoundary.fresh = s.fresh ∧
    s.countBoundary.pending = s.pending := by
  refine ⟨rfl, rfl, rfl, rfl, rfl, rfl, rfl, rfl, rfl, rfl, rfl, rfl, rfl, rfl, rfl, rfl, rfl, rfl, rfl, rfl, rfl⟩

@[simp] theorem State.boundaryWork_frame (t : LinkTime) (e : Bool) :
    (s.boundaryWork t e).straps = s.straps ∧ (s.boundaryWork t e).rx = s.rx ∧ (s.boundaryWork t e).tx = s.tx ∧
    (s.boundaryWork t e).sent = s.sent ∧ (s.boundaryWork t e).delay = s.delay ∧
    (s.boundaryWork t e).filterInput = s.filterInput ∧ (s.boundaryWork t e).slots = s.slots ∧
    (s.boundaryWork t e).profiles = s.profiles ∧ (s.boundaryWork t e).cells = s.cells ∧
    (s.boundaryWork t e).notice = s.notice ∧ (s.boundaryWork t e).fresh = s.fresh ∧
    (s.boundaryWork t e).pending = s.pending := by
  unfold State.boundaryWork; dsimp only; split <;> simp

@[simp] theorem State.startBoundary_frame (t : LinkTime) (e : Bool) (o : BoundaryOrder) :
    (s.startBoundary t e o).straps = s.straps ∧ (s.startBoundary t e o).rx = s.rx ∧
    (s.startBoundary t e o).sent = s.sent ∧ (s.startBoundary t e o).delay = s.delay ∧
    (s.startBoundary t e o).filterInput = s.filterInput ∧ (s.startBoundary t e o).slots = s.slots ∧
    (s.startBoundary t e o).profiles = s.profiles ∧ (s.startBoundary t e o).cells = s.cells ∧
    (s.startBoundary t e o).fresh = s.fresh ∧ (s.startBoundary t e o).pending = s.pending := by
  simp [State.startBoundary]

@[simp] theorem State.startSuperframe_frame (w : ServiceWord) :
    (s.startSuperframe w).straps = s.straps ∧ (s.startSuperframe w).sent = s.sent ∧
    (s.startSuperframe w).delay = s.delay ∧ (s.startSuperframe w).filterInput = s.filterInput ∧
    (s.startSuperframe w).slots = s.slots ∧ (s.startSuperframe w).profiles = s.profiles ∧
    (s.startSuperframe w).pending = s.pending := by
  unfold State.startSuperframe; dsimp only; (repeat' split) <;> simp

@[simp] theorem State.validHeader_frame (h : Byte) (t : LinkTime) :
    (s.validHeader h t).straps = s.straps ∧ (s.validHeader h t).tx = s.tx ∧ (s.validHeader h t).sent = s.sent ∧
    (s.validHeader h t).delay = s.delay ∧ (s.validHeader h t).filterInput = s.filterInput ∧
    (s.validHeader h t).slots = s.slots ∧ (s.validHeader h t).progs = s.progs ∧ (s.validHeader h t).meters = s.meters ∧
    (s.validHeader h t).heldStarts = s.heldStarts ∧ (s.validHeader h t).profiles = s.profiles ∧
    (s.validHeader h t).laws = s.laws ∧ (s.validHeader h t).lawMark = s.lawMark ∧
    (s.validHeader h t).arbiter = s.arbiter ∧ (s.validHeader h t).engine = s.engine ∧
    (s.validHeader h t).cues = s.cues ∧ (s.validHeader h t).owed = s.owed ∧ (s.validHeader h t).gains = s.gains ∧
    (s.validHeader h t).cells = s.cells ∧ (s.validHeader h t).fresh = s.fresh ∧
    (s.validHeader h t).pending = s.pending := by
  unfold State.validHeader; dsimp only; (repeat' split) <;> simp

@[simp] theorem State.checkHeader_frame (a b : ServiceWord) :
    (s.checkHeader a b).straps = s.straps ∧ (s.checkHeader a b).tx = s.tx ∧ (s.checkHeader a b).sent = s.sent ∧
    (s.checkHeader a b).delay = s.delay ∧ (s.checkHeader a b).filterInput = s.filterInput ∧
    (s.checkHeader a b).slots = s.slots ∧ (s.checkHeader a b).progs = s.progs ∧
    (s.checkHeader a b).heldStarts = s.heldStarts ∧ (s.checkHeader a b).profiles = s.profiles ∧
    (s.checkHeader a b).laws = s.laws ∧ (s.checkHeader a b).lawMark = s.lawMark ∧
    (s.checkHeader a b).arbiter = s.arbiter ∧ (s.checkHeader a b).engine = s.engine ∧
    (s.checkHeader a b).cues = s.cues ∧ (s.checkHeader a b).owed = s.owed ∧ (s.checkHeader a b).fresh = s.fresh ∧
    (s.checkHeader a b).pending = s.pending := by
  unfold State.checkHeader; dsimp only; (repeat' split) <;> simp

@[simp] theorem State.carryFrame_frame (x : Samples) :
    (s.carryFrame x).straps = s.straps ∧ (s.carryFrame x).rx = s.rx ∧ (s.carryFrame x).tx = s.tx ∧
    (s.carryFrame x).sent = s.sent ∧ (s.carryFrame x).slots = s.slots ∧ (s.carryFrame x).progs = s.progs ∧
    (s.carryFrame x).meters = s.meters ∧ (s.carryFrame x).heldStarts = s.heldStarts ∧
    (s.carryFrame x).profiles = s.profiles ∧ (s.carryFrame x).laws = s.laws ∧ (s.carryFrame x).lawMark = s.lawMark ∧
    (s.carryFrame x).arbiter = s.arbiter ∧ (s.carryFrame x).engine = s.engine ∧ (s.carryFrame x).cues = s.cues ∧
    (s.carryFrame x).owed = s.owed ∧ (s.carryFrame x).gains = s.gains ∧ (s.carryFrame x).cells = s.cells ∧
    (s.carryFrame x).notice = s.notice ∧ (s.carryFrame x).fresh = s.fresh ∧ (s.carryFrame x).pending = s.pending := by
  refine ⟨rfl, rfl, rfl, rfl, rfl, rfl, rfl, rfl, rfl, rfl, rfl, rfl, rfl, rfl, rfl, rfl, rfl, rfl, rfl, rfl⟩

@[simp] theorem State.reportAndArrive_frame (r : Option CellSource) (a : Option Cell) :
    (s.reportAndArrive r a).straps = s.straps ∧ (s.reportAndArrive r a).rx = s.rx ∧ (s.reportAndArrive r a).tx = s.tx ∧
    (s.reportAndArrive r a).sent = s.sent ∧ (s.reportAndArrive r a).delay = s.delay ∧
    (s.reportAndArrive r a).filterInput = s.filterInput ∧ (s.reportAndArrive r a).slots = s.slots ∧
    (s.reportAndArrive r a).progs = s.progs ∧ (s.reportAndArrive r a).meters = s.meters ∧
    (s.reportAndArrive r a).heldStarts = s.heldStarts ∧ (s.reportAndArrive r a).profiles = s.profiles ∧
    (s.reportAndArrive r a).laws = s.laws ∧ (s.reportAndArrive r a).lawMark = s.lawMark ∧
    (s.reportAndArrive r a).arbiter = s.arbiter ∧ (s.reportAndArrive r a).engine = s.engine ∧
    (s.reportAndArrive r a).cues = s.cues ∧ (s.reportAndArrive r a).owed = s.owed ∧
    (s.reportAndArrive r a).gains = s.gains ∧ (s.reportAndArrive r a).pending = s.pending := by
  unfold State.reportAndArrive; dsimp only; (repeat' split) <;> simp

@[simp] theorem State.passFrame_frame (x : Samples) :
    (s.passFrame x).straps = s.straps ∧ (s.passFrame x).rx = s.rx ∧ (s.passFrame x).slots = s.slots ∧
    (s.passFrame x).progs = s.progs ∧ (s.passFrame x).heldStarts = s.heldStarts ∧
    (s.passFrame x).profiles = s.profiles ∧ (s.passFrame x).laws = s.laws ∧ (s.passFrame x).lawMark = s.lawMark ∧
    (s.passFrame x).arbiter = s.arbiter ∧ (s.passFrame x).engine = s.engine ∧ (s.passFrame x).cues = s.cues ∧
    (s.passFrame x).owed = s.owed ∧ (s.passFrame x).pending = s.pending := by
  unfold State.passFrame; dsimp only; (repeat' split) <;> simp

@[simp] theorem State.examineFrame_frame (w : ServiceWord) :
    (s.examineFrame w).straps = s.straps ∧ (s.examineFrame w).tx = s.tx ∧ (s.examineFrame w).sent = s.sent ∧
    (s.examineFrame w).delay = s.delay ∧ (s.examineFrame w).filterInput = s.filterInput ∧
    (s.examineFrame w).slots = s.slots ∧ (s.examineFrame w).progs = s.progs ∧ (s.examineFrame w).meters = s.meters ∧
    (s.examineFrame w).heldStarts = s.heldStarts ∧ (s.examineFrame w).profiles = s.profiles ∧
    (s.examineFrame w).laws = s.laws ∧ (s.examineFrame w).lawMark = s.lawMark ∧ (s.examineFrame w).arbiter = s.arbiter ∧
    (s.examineFrame w).engine = s.engine ∧ (s.examineFrame w).cues = s.cues ∧ (s.examineFrame w).owed = s.owed ∧
    (s.examineFrame w).gains = s.gains ∧ (s.examineFrame w).cells = s.cells ∧ (s.examineFrame w).notice = s.notice ∧
    (s.examineFrame w).fresh = s.fresh ∧ (s.examineFrame w).pending = s.pending := by
  refine ⟨rfl, rfl, rfl, rfl, rfl, rfl, rfl, rfl, rfl, rfl, rfl, rfl, rfl, rfl, rfl, rfl, rfl, rfl, rfl, rfl, rfl⟩

@[simp] theorem State.enterConfirm_frame (a b : ServiceWord) :
    (s.enterConfirm a b).straps = s.straps ∧ (s.enterConfirm a b).tx = s.tx ∧ (s.enterConfirm a b).sent = s.sent ∧
    (s.enterConfirm a b).slots = s.slots ∧ (s.enterConfirm a b).progs = s.progs ∧
    (s.enterConfirm a b).meters = s.meters ∧ (s.enterConfirm a b).heldStarts = s.heldStarts ∧
    (s.enterConfirm a b).profiles = s.profiles ∧ (s.enterConfirm a b).laws = s.laws ∧
    (s.enterConfirm a b).lawMark = s.lawMark ∧ (s.enterConfirm a b).arbiter = s.arbiter ∧
    (s.enterConfirm a b).engine = s.engine ∧ (s.enterConfirm a b).cues = s.cues ∧ (s.enterConfirm a b).owed = s.owed ∧
    (s.enterConfirm a b).gains = s.gains ∧ (s.enterConfirm a b).cells = s.cells ∧
    (s.enterConfirm a b).notice = s.notice ∧ (s.enterConfirm a b).fresh = s.fresh ∧
    (s.enterConfirm a b).pending = s.pending := by
  refine ⟨rfl, rfl, rfl, rfl, rfl, rfl, rfl, rfl, rfl, rfl, rfl, rfl, rfl, rfl, rfl, rfl, rfl, rfl, rfl⟩

@[simp] theorem State.searchFrame_frame (f : Frame) :
    (s.searchFrame f).straps = s.straps ∧ (s.searchFrame f).tx = s.tx ∧ (s.searchFrame f).sent = s.sent ∧
    (s.searchFrame f).slots = s.slots ∧ (s.searchFrame f).progs = s.progs ∧ (s.searchFrame f).meters = s.meters ∧
    (s.searchFrame f).heldStarts = s.heldStarts ∧ (s.searchFrame f).profiles = s.profiles ∧
    (s.searchFrame f).laws = s.laws ∧ (s.searchFrame f).lawMark = s.lawMark ∧ (s.searchFrame f).arbiter = s.arbiter ∧
    (s.searchFrame f).engine = s.engine ∧ (s.searchFrame f).cues = s.cues ∧ (s.searchFrame f).owed = s.owed ∧
    (s.searchFrame f).gains = s.gains ∧ (s.searchFrame f).cells = s.cells ∧ (s.searchFrame f).notice = s.notice ∧
    (s.searchFrame f).fresh = s.fresh ∧ (s.searchFrame f).pending = s.pending := by
  unfold State.searchFrame; (repeat' split) <;> simp

@[simp] theorem State.secondHeader_frame (w : ServiceWord) (f : Frame) :
    (s.secondHeader w f).straps = s.straps ∧ (s.secondHeader w f).tx = s.tx ∧ (s.secondHeader w f).sent = s.sent ∧
    (s.secondHeader w f).slots = s.slots ∧ (s.secondHeader w f).progs = s.progs ∧
    (s.secondHeader w f).meters = s.meters ∧ (s.secondHeader w f).heldStarts = s.heldStarts ∧
    (s.secondHeader w f).profiles = s.profiles ∧ (s.secondHeader w f).laws = s.laws ∧
    (s.secondHeader w f).lawMark = s.lawMark ∧ (s.secondHeader w f).arbiter = s.arbiter ∧
    (s.secondHeader w f).engine = s.engine ∧ (s.secondHeader w f).cues = s.cues ∧ (s.secondHeader w f).owed = s.owed ∧
    (s.secondHeader w f).gains = s.gains ∧ (s.secondHeader w f).cells = s.cells ∧
    (s.secondHeader w f).notice = s.notice ∧ (s.secondHeader w f).fresh = s.fresh ∧
    (s.secondHeader w f).pending = s.pending := by
  unfold State.secondHeader; (repeat' split) <;> simp

@[simp] theorem State.confirmFrame_frame (f : Frame) :
    (s.confirmFrame f).straps = s.straps ∧ (s.confirmFrame f).tx = s.tx ∧ (s.confirmFrame f).sent = s.sent ∧
    (s.confirmFrame f).slots = s.slots ∧ (s.confirmFrame f).progs = s.progs ∧ (s.confirmFrame f).meters = s.meters ∧
    (s.confirmFrame f).heldStarts = s.heldStarts ∧ (s.confirmFrame f).profiles = s.profiles ∧
    (s.confirmFrame f).laws = s.laws ∧ (s.confirmFrame f).lawMark = s.lawMark ∧ (s.confirmFrame f).arbiter = s.arbiter ∧
    (s.confirmFrame f).engine = s.engine ∧ (s.confirmFrame f).cues = s.cues ∧ (s.confirmFrame f).owed = s.owed ∧
    (s.confirmFrame f).gains = s.gains ∧ (s.confirmFrame f).cells = s.cells ∧ (s.confirmFrame f).notice = s.notice ∧
    (s.confirmFrame f).fresh = s.fresh ∧ (s.confirmFrame f).pending = s.pending := by
  unfold State.confirmFrame; (repeat' split) <;> simp

@[simp] theorem State.heldFrame_frame (f : Frame) :
    (s.heldFrame f).straps = s.straps ∧ (s.heldFrame f).slots = s.slots ∧ (s.heldFrame f).profiles = s.profiles ∧
    (s.heldFrame f).pending = s.pending := by
  unfold State.heldFrame; dsimp only; (repeat' split) <;> simp

@[simp] theorem State.frameArrives_frame (f : Frame) :
    (s.frameArrives f).straps = s.straps ∧ (s.frameArrives f).slots = s.slots ∧
    (s.frameArrives f).profiles = s.profiles ∧ (s.frameArrives f).pending = s.pending := by
  unfold State.frameArrives; dsimp only; split <;> simp

end Sys2Proof.Machine
end

