-- ==== Sys2Proof/Laws/Ops.lean ====
section
/-! SUPPORT. What the shared operations can do, said once: sets of programmes, answering the request in hand, completing the
operation in flight, requests for the arbiter's sets, and moves of a programme's state. -/

namespace Sys2Proof.Machine

/-! ### Steps -/

/-- A step with a command waiting carries out the front one on the rest of the queue. -/
theorem step_cons {s : State} {c : Instr} {rest : List Instr} (h : s.pending = c :: rest) :
    step s = exec c (s.withPending rest) := by
  simp [step, h]

/-- A step on an empty queue changes nothing. -/
theorem step_nil {s : State} (h : s.pending = []) : step s = .next s := by
  simp [step, h]

/-- What one step can do: nothing, or the front command. -/
theorem step_next_cases {s t : State} (h : step s = .next t) :
    t = s ∨ ∃ c rest, s.pending = c :: rest ∧ exec c (s.withPending rest) = .next t := by
  cases hp : s.pending with
  | nil => left; rw [step_nil hp] at h; cases h; rfl
  | cons c rest => right; rw [step_cons hp] at h; exact ⟨c, rest, rfl, h⟩

/-! ### Sets of programmes -/

@[simp] theorem ProgSet.mem_zero (p : Prog) : ProgSet.mem 0 p = false := by
  simp [ProgSet.mem]

@[simp] theorem ProgSet.mem_or (a b : ProgSet) (p : Prog) : ProgSet.mem (a ||| b) p = (ProgSet.mem a p || ProgSet.mem b p) := by
  simp [ProgSet.mem]

@[simp] theorem ProgSet.mem_insert (a : ProgSet) (p q : Prog) :
    ProgSet.mem (ProgSet.insert a p) q = (ProgSet.mem a q || decide (p = q)) := by
  simp [ProgSet.mem, ProgSet.insert, Fin.ext_iff, eq_comm]

@[simp] theorem ProgSet.mem_erase (a : ProgSet) (p q : Prog) :
    ProgSet.mem (ProgSet.erase a p) q = (ProgSet.mem a q && !decide (p = q)) := by
  have hq : (q : Nat) < 16 := q.isLt
  simp [ProgSet.mem, ProgSet.erase, Fin.ext_iff, hq, eq_comm]

@[simp] theorem ProgSet.mem_progSetOf (f : Prog → Bool) (p : Prog) : ProgSet.mem (progSetOf f) p = f p := by
  have hp : (p : Nat) < 16 := p.isLt
  simp [ProgSet.mem, progSetOf]

theorem progSetOf_false : progSetOf (fun _ => false) = 0 := by decide

/-! ### The request in hand and the operation in flight -/

/-- A request row with its request in hand is its handler. -/
theorem onRequest_of_holds {s : State} {code : Nat} {c : Cell} (h : s.holds code c) (handle : Cell → State → State) :
    onRequest code handle s = handle c s := by
  obtain ⟨h1, h2, h3⟩ := h
  simp [onRequest, h1, h2, Nat.not_lt.mpr h3]

/-- What a request row can do: nothing, the answer to a payload length above 45, or its handler. -/
theorem onRequest_cases {P : State → Prop} {s : State} {code : Nat} {handle : Cell → State → State} (h0 : P s)
    (hlong : ∀ c, s.cells.inHand = some c → P (s.answer c .badValue []))
    (hdo : ∀ c, s.holds code c → P (handle c s)) : P (onRequest code handle s) := by
  unfold onRequest
  split
  · exact h0
  · rename_i c hc
    split
    · rename_i hk
      split
      · exact hlong c hc
      · rename_i hl; exact hdo c ⟨hc, hk, Nat.le_of_not_lt hl⟩
    · exact h0

/-- A completion row with an operation of its kind in flight completes it. -/
theorem onEngine_of {s : State} {f : InFlight} {k : Operation → Bool} (hf : s.engine = some f) (hk : k f.op = true)
    (effects : InFlight → State → State) : onEngine k effects s = s.finish f effects := by
  simp [onEngine, hf, hk]

/-- What a completion row can do: nothing, or the completion of the operation in flight. -/
theorem onEngine_cases {P : State → Prop} {s : State} {k : Operation → Bool} {effects : InFlight → State → State} (h0 : P s)
    (hdo : ∀ f, s.engine = some f → k f.op = true → P (s.finish f effects)) : P (onEngine k effects s) := by
  unfold onEngine
  split
  · rename_i f hf
    split
    · rename_i hk; exact hdo f hf hk
    · exact h0
  · exact h0

/-- A fold keeps what each of its steps keeps. -/
theorem foldl_invariant {α : Type} {P : State → Prop} {g : State → α → State} (h : ∀ s a, P s → P (g s a)) (l : List α)
    {s : State} (hs : P s) : P (l.foldl g s) := by
  induction l generalizing s with
  | nil => exact hs
  | cons a l ih => exact ih (h s a hs)

/-! ### What an inbound frame can do -/

/-- The state at a superframe start, its receiver moved on, before the boundary's work and the choice of the outbound cell. -/
def State.atStart (s : State) (w : ServiceWord) : State :=
  (if onBlock (s.rx.expected.getD 0) then s.settleBeforeBoundary else s).setRx (s.rx.startSuperframe (settleLength s.straps) w)

/-- What a superframe start can do: begin the outbound superframe, amid the work of a block boundary where there is one, in some
order, a free value drawn or not. -/
theorem startSuperframe_cases {P : State → Prop} {s : State} {w : ServiceWord}
    (hplain : onBlock (s.rx.expected.getD 0) = false → P ((s.atStart w).startOutbound (s.rx.expected.getD 0)))
    (hboundary : ∀ u e o, onBlock (s.rx.expected.getD 0) = true → u = s.atStart w ∨ u = (s.atStart w).draw →
      P (u.startBoundary (s.rx.expected.getD 0) e o)) : P (s.startSuperframe w) := by
  unfold State.startSuperframe
  unfold State.atStart at hplain hboundary
  dsimp only
  split
  · rename_i hb
    simp only [hb, if_true, State.settleBeforeBoundary_frame] at hboundary ⊢
    split
    · exact hboundary _ _ _ trivial (Or.inr rfl)
    · exact hboundary _ _ _ trivial (Or.inl rfl)
  · rename_i hb
    simp only [hb] at hplain ⊢
    exact hplain (by simp)

/-- The work of a boundary, but for the outbound superframe and the Notice Unit, is all that a boundary start leaves. -/
theorem startBoundary_eq (s : State) (t : LinkTime) (e : Bool) (o : BoundaryOrder) : s.startBoundary t e o =
    { s.boundaryWork t e with tx := (s.startBoundary t e o).tx, notice := (s.startBoundary t e o).notice } := rfl

/-- What a frame can do in SETTLING and RUNNING. -/
theorem heldFrame_cases {P : State → Prop} {s : State} {f : Frame}
    (hstart : s.rx.words.length = 16 → P ((s.startSuperframe f.service).passFrame f.samples))
    (hlost : ∀ w0, s.rx.words = [w0] → (s.checkHeader w0 f.service).rx.lock = .search → P (s.checkHeader w0 f.service))
    (hcheck : ∀ w0, s.rx.words = [w0] → (s.checkHeader w0 f.service).rx.lock ≠ .search →
      P ((s.checkHeader w0 f.service).passFrame f.samples))
    (hpass : s.rx.words.length ≠ 16 → s.rx.words.length ≠ 1 →
      P ((s.setRx (s.rx.setWords (s.rx.words ++ [f.service]))).passFrame f.samples)) : P (s.heldFrame f) := by
  unfold State.heldFrame
  dsimp only
  split
  · rename_i h; exact hstart h
  · rename_i h
    split
    · rename_i w0 hw
      split
      · rename_i hl; exact hlost w0 hw hl
      · rename_i hl; exact hcheck w0 hw hl
    · rename_i hw; refine hpass h fun h1 => ?_
      obtain ⟨w0, h0⟩ := List.length_eq_one_iff.mp h1
      exact hw w0 h0

/-- What the arrival of a frame can do, by the lock state once a header error of missing frames that was due has been taken. -/
theorem frameArrives_cases {P : State → Prop} {s : State} {f : Frame}
    (hsearch : s.takeOwedTimeout.rx.lock = .search → P ((s.takeOwedTimeout.setRx s.takeOwedTimeout.rx.heard).searchFrame f))
    (hconfirm : s.takeOwedTimeout.rx.lock = .confirm → P ((s.takeOwedTimeout.setRx s.takeOwedTimeout.rx.heard).confirmFrame f))
    (hheld : s.takeOwedTimeout.rx.lock = .settling ∨ s.takeOwedTimeout.rx.lock = .running →
      P ((s.takeOwedTimeout.setRx s.takeOwedTimeout.rx.heard).heldFrame f)) : P (s.frameArrives f) := by
  unfold State.frameArrives
  dsimp only [State.setRx_rx, Receiver.heard_lock]
  cases h : s.takeOwedTimeout.rx.lock
  · exact hsearch h
  · exact hconfirm h
  · exact hheld (Or.inl h)
  · exact hheld (Or.inr h)

/-- Where no header error of missing frames is due, none is taken. -/
theorem takeOwedTimeout_inTime {s : State} (h : s.framesInTime) : s.takeOwedTimeout = s := by
  unfold State.framesInTime at h
  simp [State.takeOwedTimeout, Nat.not_le.mpr h]

/-- Where a header error of missing frames is due, MISSING_FRAME_TIMEOUT is that error alone. -/
theorem missFrames_due {s : State} (hl : s.rx.lock ≠ .search) (h : s.rx.nextTimeout ≤ s.rx.periods) :
    missFrames s = s.takeTimeout := by
  unfold missFrames
  rw [if_neg hl, Nat.sub_eq_zero_of_le h]; rfl

/-- Where a header error of missing frames is due, it is taken. -/
theorem takeOwedTimeout_due {s : State} (h : s.rx.nextTimeout ≤ s.rx.periods) : s.takeOwedTimeout = s.takeTimeout := if_pos h

/-- The receiver after the lock is lost (R8). -/
@[simp] theorem loseLock_rx (s : State) : s.loseLock.rx = s.rx.toSearch := by
  unfold State.loseLock; dsimp only; split <;> simp

/-- The receiver after a header error: back in SEARCH at a run of 2 (R7, R8). -/
theorem headerError_rx (s : State) :
    s.headerError.rx = if 2 ≤ s.rx.errorRun + 1 then s.rx.toSearch else s.rx.takeError := by
  unfold State.headerError; dsimp only; split
  · rw [loseLock_rx]; rfl
  · rfl

/-- The receiver after the header error of missing frames (R9). -/
theorem takeTimeout_rx (s : State) : s.takeTimeout.rx =
    match s.rx.lock with
    | .search => s.rx
    | .confirm => s.rx.toSearch
    | .settling | .running => if 2 ≤ s.rx.errorRun + 1 then s.rx.toSearch else s.rx.passTimeout.takeError := by
  unfold State.takeTimeout
  cases s.rx.lock <;> first | rfl | exact headerError_rx _

/-- While the link is followed, a frame is carried by the receiver as it stands, its count of reference periods begun again. -/
theorem frameArrives_following {s : State} {f : Frame} (h : s.followsTheLink) :
    s.frameArrives f = (s.setRx s.rx.heard).heldFrame f := by
  unfold State.frameArrives
  rw [takeOwedTimeout_inTime h.2]
  rcases h.1 with hl | hl <;> simp only [State.setRx_rx, Receiver.heard_lock, hl]

/-- A frame that is neither frame 0 nor frame 1 adds its word to the superframe and passes through the part. -/
theorem heldFrame_word {s : State} {f : Frame} (h1 : s.rx.words.length ≠ 1) (h16 : s.rx.words.length ≠ 16) :
    s.heldFrame f = (s.setRx (s.rx.setWords (s.rx.words ++ [f.service]))).passFrame f.samples := by
  unfold State.heldFrame
  rw [if_neg h16]
  split
  · rename_i w0 hw; exact absurd (by simp [hw]) h1
  · rfl

/-! ### Segment starts -/

/-- A segment start that CLOSE makes first leaves the programme's state as it was. -/
@[simp] theorem startHeldSegment_state (s : State) (p : Prog) :
    (s.startHeldSegment p).progs[p].state = s.progs[p].state := by
  unfold State.startHeldSegment; split <;> simp

/-! ### The report of a staged list that CLOSE empties -/

/-- Emptying a programme's staged list makes an entry eligible exactly where the list holds 2 entries and the programme has a DUE
entry (R90, R143). -/
theorem newlyEligible_emptied (s : State) (p : Prog) : newlyEligible s (s.setGain p s.gains[p].closed) = true ↔
    2 ≤ s.gains[p].staged.length ∧ ∃ e ∈ s.cues, e.prog = p ∧ e.due = true := by
  have other : ∀ r : Prog, r ≠ p → (s.setGain p s.gains[p].closed).eligibleFor r = s.eligibleFor r := by
    intro r h
    have : (s.gains.set p s.gains[p].closed)[r] = s.gains[r] :=
      Vector.getElem_set_ne _ _ (fun e => h (Fin.ext e.symm))
    simp only [State.eligibleFor, State.setGain_gains, State.setGain_cues, this]
  have own : (s.setGain p s.gains[p].closed).eligibleFor p = firstDue s.cues p := by
    have : (s.gains.set p s.gains[p].closed)[p] = s.gains[p].closed := by simp
    rw [State.eligibleFor, State.setGain_gains, State.setGain_cues, if_pos]
    rw [this]; exact Nat.zero_lt_two
  have due : (firstDue s.cues p).isSome = true ↔ ∃ e ∈ s.cues, e.prog = p ∧ e.due = true := by
    simp [firstDue, List.find?_isSome, and_comm]
  simp only [newlyEligible, List.any_eq_true, Bool.and_eq_true, bne_iff_ne]
  constructor
  · rintro ⟨r, _, h1, h2⟩
    by_cases hr : r = p
    · subst hr
      rw [own] at h1 h2
      refine ⟨?_, due.mp h1⟩
      by_contra hl
      exact h2 (by rw [State.eligibleFor, if_pos (by omega)])
    · exact absurd (other r hr) h2
  · rintro ⟨hl, he⟩
    refine ⟨p, by simp [allProgs], by rw [own]; exact due.mpr he, ?_⟩
    rw [own, State.eligibleFor, if_neg (by omega)]
    intro hn
    rw [← due, hn] at he
    cases he

/-- What a CLOSE's report of an emptied staged list can do: nothing where it makes no entry eligible or no automatic operation is in
flight; else a free value is drawn, and the operation stays or is cancelled. -/
theorem reportEmptied_cases (s : State) (p : Prog) :
    (((2 ≤ s.gains[p].staged.length ∧ ∃ e ∈ s.cues, e.prog = p ∧ e.due = true) ∧ s.automaticInFlight = true) →
      s.reportEmptied p = s.draw ∨ s.reportEmptied p = s.draw.cancelAutomatic) ∧
    (¬((2 ≤ s.gains[p].staged.length ∧ ∃ e ∈ s.cues, e.prog = p ∧ e.due = true) ∧ s.automaticInFlight = true) →
      s.reportEmptied p = s) := by
  rw [← newlyEligible_emptied]
  unfold State.reportEmptied
  constructor
  · rintro ⟨h1, h2⟩
    rw [if_pos (by rw [h1, h2]; rfl)]
    split
    · exact .inr rfl
    · exact .inl rfl
  · intro h
    exact if_neg (by simpa using h)

/-! ### The state after reset -/

/-- PIN_RESET leaves the part as the start of its first outbound superframe does: a notice of RESTARTED owed and then copied, at
link time 0 (R23, R186, R191). -/
theorem afterReset_startsOutbound (x : Straps) :
    ({ State.afterReset x with notice := NoticeUnit.reset } : State).startOutbound 0 = State.afterReset x := by
  have hd : ({ State.afterReset x with notice := NoticeUnit.reset } : State).differing = 0 :=
    (congrArg progSetOf (funext fun p => by simp [State.afterReset, ProgRecord.reset])).trans progSetOf_false
  have hp : ({ State.afterReset x with notice := NoticeUnit.reset } : State).pressureSet = 0 :=
    (congrArg progSetOf (funext fun p => by simp [State.afterReset, GainRecord.reset])).trans progSetOf_false
  simp only [State.startOutbound, State.chooseCell, State.builtNotice, hd, hp]
  rfl

/-! ### Reading a record after an update -/

@[simp] theorem progs_set_self (v : Vector ProgRecord 16) (p : Prog) (r : ProgRecord) : (v.set p r)[p] = r := by
  simp

theorem opened_iff (s : State) (p : Prog) : s.opened p = true ↔ s.progs[p].state ≠ .unused := by
  simp [State.opened]

theorem tracking_iff (s : State) (p : Prog) : s.tracking p = true ↔ s.progs[p].state = .tracking := by
  simp [State.tracking]

theorem tracking_opened {s : State} {p : Prog} (h : s.tracking p = true) : s.opened p = true := by
  rw [tracking_iff] at h; rw [opened_iff, h]; decide

end Sys2Proof.Machine
end

