-- ==== Sys2Proof/Laws/Notices.lean ====
section
/-! SUPPORT. What claims do to the Notice Unit, one after another, and what the claims of a block boundary do beside the choice of
the outbound cell; and what a frame passing through the part sends. -/

namespace Sys2Proof.Machine

theorem NoticeState.trigger_trigger (n : NoticeState) : n.trigger.trigger = n.trigger := by cases n <;> rfl

/-- `m` is the Notice Unit `n` after some claims: flags have been set, the settings stand, and the notice state has taken a trigger
where some claim was one. -/
structure NoticeUnit.Claimed (n m : NoticeUnit) : Prop where
  settings : m = { n with flags := m.flags, state := m.state }
  flags : ∀ k : Condition, n.flags.getLsbD k.bit = true → m.flags.getLsbD k.bit = true
  state : ∃ a : Bool, (a = true ↔ n.Triggered m.flags) ∧ m.state = if a then n.state.trigger else n.state

namespace NoticeUnit.Claimed

variable {n m l : NoticeUnit}

theorem enable (h : n.Claimed m) : m.enable = n.enable := by rw [h.settings]
theorem mask (h : n.Claimed m) : m.mask = n.mask := by rw [h.settings]

theorem refl (n : NoticeUnit) : n.Claimed n := by
  refine ⟨rfl, fun _ h => h, false, ?_, rfl⟩
  simp only [NoticeUnit.Triggered, Bool.false_eq_true, false_iff]
  rintro ⟨k, h1, h2, _⟩; rw [h1] at h2; cases h2

/-- Claims follow claims. -/
theorem trans (h : n.Claimed m) (g : m.Claimed l) : n.Claimed l := by
  refine ⟨?_, fun k x => g.flags k (h.flags k x), ?_⟩
  · rw [g.settings, h.settings]
  obtain ⟨a, ha, sa⟩ := h.state
  obtain ⟨b, hb, sb⟩ := g.state
  refine ⟨a || b, ?_, ?_⟩
  · simp only [Bool.or_eq_true, ha, hb, NoticeUnit.Triggered]
    constructor
    · rintro (⟨k, x, y, z⟩ | ⟨k, x, y, z⟩)
      · exact ⟨k, x, g.flags k y, z⟩
      · refine ⟨k, ?_, y, by rw [h.enable, h.mask] at z; exact z⟩
        rw [← Bool.not_eq_true]; intro w; rw [h.flags k w] at x; cases x
    · rintro ⟨k, x, y, z⟩
      by_cases w : m.flags.getLsbD k.bit = true
      · exact Or.inl ⟨k, x, w, z⟩
      · exact Or.inr ⟨k, by simpa using w, y, by rw [h.enable, h.mask]; exact z⟩
  · rw [sb, sa]; cases a <;> cases b <;> simp [NoticeState.trigger_trigger]

end NoticeUnit.Claimed

/-- The flag of each condition after a claim. -/
theorem claimIf_flag (n : NoticeUnit) (b : Bool) (k j : Condition) :
    (n.claimIf b k).flags.getLsbD j.bit = (n.flags.getLsbD j.bit || (b && decide (j = k))) := by
  cases b
  · simp [NoticeUnit.claimIf]
  simp only [NoticeUnit.claimIf, if_true, NoticeUnit.claim]
  split
  · rename_i h; by_cases hj : j = k
    · subst hj; simp [h]
    · simp [hj]
  · cases j <;> cases k <;> simp [Condition.bit]

/-- A claim is a claim. -/
theorem claimIf_claimed (n : NoticeUnit) (b : Bool) (k : Condition) : n.Claimed (n.claimIf b k) := by
  refine ⟨?_, fun j h => by rw [claimIf_flag, h]; rfl, ?_⟩
  · cases b
    · rfl
    · unfold NoticeUnit.claimIf NoticeUnit.claim; simp only [if_true]; split <;> rfl
  · refine ⟨b && !n.flags.getLsbD k.bit && n.triggers k, ?_, ?_⟩
    · simp only [NoticeUnit.Triggered, claimIf_flag, NoticeUnit.triggers]
      constructor
      · intro h; simp at h; exact ⟨k, h.1.2, by simp [h.1], by simpa using h.2⟩
      · rintro ⟨j, h1, h2, h3⟩
        simp [h1] at h2; obtain ⟨hb, rfl⟩ := h2; simp [hb, h1, h3]
    · cases b
      · rfl
      · unfold NoticeUnit.claimIf NoticeUnit.claim
        cases h : n.flags.getLsbD k.bit <;> simp

/-- What the claims of a boundary do. -/
theorem takeClaims_claimed (n : NoticeUnit) (c : BoundaryClaims) : n.Claimed (n.takeClaims c) :=
  ((claimIf_claimed _ _ _).trans (claimIf_claimed _ _ _)).trans (claimIf_claimed _ _ _)

/-- The flag of each condition after the claims of a boundary. -/
theorem takeClaims_flag (n : NoticeUnit) (c : BoundaryClaims) (k : Condition) : (n.takeClaims c).flags.getLsbD k.bit =
    (n.flags.getLsbD k.bit || (c.swap && decide (k = .swapDone)) ||
      ((c.due || c.staged != 0) && decide (k = .cueLate)) || (c.pressed != 0 && decide (k = .guardPressure))) := by
  simp only [NoticeUnit.takeClaims, claimIf_flag]

/-- The claims of a boundary keep the flags that those before the choice have set, whatever the order. -/
theorem takeClaims_before_flag (n : NoticeUnit) (c : BoundaryClaims) (o : BoundaryOrder) (k : Condition)
    (h : (n.takeClaims (c.before o)).flags.getLsbD k.bit = true) : (n.takeClaims c).flags.getLsbD k.bit = true := by
  rw [takeClaims_flag] at h ⊢
  have h0 : ∀ a b : ProgSet, a = 0 → a &&& b = 0 := by intro a b e; subst e; simp
  cases k <;> simp only [BoundaryClaims.before, Bool.or_eq_true, Bool.and_eq_true, bne_iff_ne, ne_eq] at h ⊢ <;>
    simp at h ⊢ <;> grind

/-! ### A frame passing through the part -/

/-- The frame passes through the Meter and the frame check, and the outbound frame is sent; nothing else happens. -/
theorem passFrame_quiet (s : State) (x : Samples) (hs : s.tx.sent ≠ 15)
    (hw : ¬(s.rx.words.length = 16 ∧ s.rx.header = .valid)) : ∃ v : State,
    v = (if s.rx.lock = .running then (s.carryFrame x).accumulate.frameCheck (s.delay.headD silence) else s.carryFrame x) ∧
    s.passFrame x = v.sendFrame (v.outSamples (s.delay.headD silence)) := by
  refine ⟨_, rfl, ?_⟩
  have hr : ∀ w : State, w.tx = s.tx → w.reportDue = none := by
    intro w hw; simp [State.reportDue, hw, hs]
  unfold State.passFrame
  dsimp only
  rw [hr _ (by split <;> simp), if_neg hw]
  rfl

/-- The outbound superframe and the word sent after a frame has passed through the part: one frame more, with the next word. -/
theorem passFrame_sent (s : State) (x : Samples) :
    (s.passFrame x).tx = (if s.tx.sent < 16 then { s.tx with sent := s.tx.sent + 1 } else s.tx) ∧
    ∃ out, (s.passFrame x).sent = some out ∧ (s.tx.sent < 16 → out.service = s.tx.word s.tx.sent) := by
  have key : ∀ (v : State) (y : Samples), v.tx = s.tx →
      (v.sendFrame y).tx = (if s.tx.sent < 16 then { s.tx with sent := s.tx.sent + 1 } else s.tx) ∧
      ∃ out, (v.sendFrame y).sent = some out ∧ (s.tx.sent < 16 → out.service = s.tx.word s.tx.sent) := by
    intro v y hv
    unfold State.sendFrame
    rw [hv]
    split
    · exact ⟨rfl, _, rfl, fun _ => rfl⟩
    · rename_i h; exact ⟨rfl, _, rfl, fun h' => absurd h' h⟩
  unfold State.passFrame
  dsimp only
  simp only [State.reportAndArrive_frame]
  exact key _ _ (by split <;> simp)

/-- The Cell Handler and the Notice Unit after a frame that brings no cell: the sent report that is due is taken. -/
theorem passFrame_report (s : State) (x : Samples) (hw : ¬(s.rx.words.length = 16 ∧ s.rx.header = .valid)) :
    (s.passFrame x).cells = (match s.reportDue with | some source => s.sentReport source | none => s).cells ∧
    (s.passFrame x).notice = (match s.reportDue with | some source => s.sentReport source | none => s).notice := by
  have key : ∀ v : State, v.cells = s.cells → v.notice = s.notice →
      (v.reportAndArrive s.reportDue none).cells = (match s.reportDue with | some source => s.sentReport source | none => s).cells ∧
      (v.reportAndArrive s.reportDue none).notice = (match s.reportDue with | some source => s.sentReport source | none => s).notice := by
    intro v hc hn
    cases h : s.reportDue with
    | none => exact ⟨hc, hn⟩
    | some source => cases source <;> simp [State.reportAndArrive, State.sentReport, hc, hn]
  have due : ∀ v : State, v.tx = s.tx → v.reportDue = s.reportDue := by intro v h; simp [State.reportDue, h]
  unfold State.passFrame
  dsimp only
  rw [if_neg hw, due _ (by split <;> simp)]
  exact key _ (by split <;> simp) (by split <;> simp)

/-! ### A superframe start that is a block boundary -/

/-- The cell chosen is the one the part offers. -/
theorem chooseCell_offers (s : State) : s.OffersCell s.chooseCell.1 s.chooseCell.2 := by
  unfold State.OffersCell State.chooseCell
  split
  · rename_i h; exact Or.inl ⟨h, rfl, rfl⟩
  · rename_i h
    refine Or.inr ⟨by simpa using h, ?_⟩
    split
    · rename_i c rest hc; exact Or.inl ⟨⟨rest, hc⟩, rfl⟩
    · rename_i m rest hf hr; exact Or.inr ⟨hf, Or.inl ⟨⟨m, rest, hr, rfl⟩, rfl⟩⟩
    · rename_i hf hr; exact Or.inr ⟨hf, Or.inr ⟨hr, rfl, rfl⟩⟩

/-- The start of an outbound superframe sets no flag and changes no setting. -/
theorem startOutbound_notice (s : State) (t : LinkTime) :
    (s.startOutbound t).notice = { s.notice with state := s.notice.state.start } := rfl

/-- The Notice Unit and the outbound superframe after a boundary start, in any order: claims, the start as the part `seen` finds it,
and claims again, after which the flags are those of all the boundary's claims. -/
theorem startBoundary_notice (s : State) (t : LinkTime) (e : Bool) (o : BoundaryOrder) : ∃ seen : State,
    seen = { s with gains := seen.gains, notice := seen.notice } ∧
    (s.startBoundary t e o).tx = (seen.startOutbound t).tx ∧
    s.notice.Claimed seen.notice ∧ (seen.startOutbound t).notice.Claimed (s.startBoundary t e o).notice ∧
    (∀ p : Prog, seen.gains[p] = s.gains[p] ∨ seen.gains[p] = (s.boundaryWork t e).gains[p]) ∧
    ∀ k : Condition, (s.startBoundary t e o).notice.flags.getLsbD k.bit =
      (s.notice.takeClaims (s.boundaryClaims t e)).flags.getLsbD k.bit := by
  refine ⟨s.atChoice (s.boundaryWork t e) (s.boundaryClaims t e) o, rfl, rfl, takeClaims_claimed _ _, takeClaims_claimed _ _, ?_, ?_⟩
  · intro p
    simp only [State.atChoice, Fin.getElem_fin, Vector.getElem_ofFn]
    split
    · exact Or.inr rfl
    · exact Or.inl rfl
  · intro k
    have h : ((s.atChoice (s.boundaryWork t e) (s.boundaryClaims t e) o).startOutbound t).notice.flags =
      (s.notice.takeClaims ((s.boundaryClaims t e).before o)).flags := rfl
    have h1 := takeClaims_before_flag s.notice (s.boundaryClaims t e) o k
    have h2 : (s.startBoundary t e o).notice = (((s.atChoice (s.boundaryWork t e) (s.boundaryClaims t e) o).startOutbound t).notice).takeClaims
      (s.boundaryClaims t e) := rfl
    rw [h2, takeClaims_flag, h]
    rw [takeClaims_flag s.notice (s.boundaryClaims t e)] at h1 ⊢
    have h3 := (takeClaims_claimed s.notice ((s.boundaryClaims t e).before o)).flags k
    cases hx : (s.notice.takeClaims ((s.boundaryClaims t e).before o)).flags.getLsbD k.bit <;>
      cases hy : s.notice.flags.getLsbD k.bit <;> simp_all

end Sys2Proof.Machine
end

