-- ==== Sys2Proof/WellFormed.lean ====
section
/-! DEFINITION. When a command is well formed. The types of the operands already say everything the manual asks of them (a
frame holds 64 samples of 24 bits and one word of 32, R1; four address straps and two settle straps, R22), and no other row
carries an operand, so every term of `Instr` is well formed and no check can refuse one. The checks a station can fail are
not checks on commands: they are made on the bytes of a request cell and give a response its status. -/

namespace Sys2Proof

/-- Every command is well formed: the operand types leave nothing to check. -/
def Instr.wellFormed : Instr → Bool
  | .pinReset _ | .inboundFrame _ => true
  | .windowCompletion | .referenceFramePeriod | .missingFrameTimeout => true
  | .requestTake | .unknownRequest | .ident | .read | .profileWrite | .lawLoad | .lawSwap | .slotMap => true
  | .openProgramme | .closeProgramme | .cuePost | .cueWithdraw | .profileExchange | .gainForce | .gainRelease => true
  | .probe | .presenceRead | .segmentReset | .participate | .conditionsRead | .conditionsClear | .noticeSet => true
  | .restart | .grant | .retuneCompletion | .rescaleCompletion | .cueCompletion => true
  | .profileExchangeCompletion | .gainForceCompletion | .gainReleaseCompletion | .probeCompletion => true

end Sys2Proof
end

