-- ==== Sys2Proof/Laws/PerInstr.lean ====
section
/-! SUPPORT. Statements made of every command, one lemma for each constructor of `Instr`. -/

namespace Sys2Proof.Laws.WellFormed

/-- A command is well formed. -/
def Statement (i : Instr) : Prop := i.wellFormed = true

theorem pinReset (straps : Straps) : Statement (.pinReset straps) := rfl
theorem inboundFrame (frame : Frame) : Statement (.inboundFrame frame) := rfl
theorem windowCompletion : Statement .windowCompletion := rfl
theorem referenceFramePeriod : Statement .referenceFramePeriod := rfl
theorem missingFrameTimeout : Statement .missingFrameTimeout := rfl
theorem requestTake : Statement .requestTake := rfl
theorem unknownRequest : Statement .unknownRequest := rfl
theorem ident : Statement .ident := rfl
theorem read : Statement .read := rfl
theorem profileWrite : Statement .profileWrite := rfl
theorem lawLoad : Statement .lawLoad := rfl
theorem lawSwap : Statement .lawSwap := rfl
theorem slotMap : Statement .slotMap := rfl
theorem openProgramme : Statement .openProgramme := rfl
theorem closeProgramme : Statement .closeProgramme := rfl
theorem cuePost : Statement .cuePost := rfl
theorem cueWithdraw : Statement .cueWithdraw := rfl
theorem profileExchange : Statement .profileExchange := rfl
theorem gainForce : Statement .gainForce := rfl
theorem gainRelease : Statement .gainRelease := rfl
theorem probe : Statement .probe := rfl
theorem presenceRead : Statement .presenceRead := rfl
theorem segmentReset : Statement .segmentReset := rfl
theorem participate : Statement .participate := rfl
theorem conditionsRead : Statement .conditionsRead := rfl
theorem conditionsClear : Statement .conditionsClear := rfl
theorem noticeSet : Statement .noticeSet := rfl
theorem restart : Statement .restart := rfl
theorem grant : Statement .grant := rfl
theorem retuneCompletion : Statement .retuneCompletion := rfl
theorem rescaleCompletion : Statement .rescaleCompletion := rfl
theorem cueCompletion : Statement .cueCompletion := rfl
theorem profileExchangeCompletion : Statement .profileExchangeCompletion := rfl
theorem gainForceCompletion : Statement .gainForceCompletion := rfl
theorem gainReleaseCompletion : Statement .gainReleaseCompletion := rfl
theorem probeCompletion : Statement .probeCompletion := rfl

end Sys2Proof.Laws.WellFormed
end

