-- ==== Sys2Proof/Laws/Quantities.lean ====
section
/-! SUPPORT. What the arithmetic of gains and levels computes: the search from the top bit, the comparison with a power of ten as
the comparison of real numbers it stands for, clamps, and the bounds of a peak level and of a need. -/

namespace Sys2Proof.Machine

/-! ### The search from the top bit -/

theorem greatestBelow_ge (p : Nat → Bool) (bits acc : Nat) : acc ≤ greatestBelow p bits acc := by
  induction bits generalizing acc with
  | zero => exact le_refl _
  | succ b ih => unfold greatestBelow; split
                 · exact le_trans (Nat.le_add_right _ _) (ih _)
                 · exact ih _

theorem greatestBelow_lt (p : Nat → Bool) (bits acc : Nat) : greatestBelow p bits acc < acc + 2 ^ bits := by
  induction bits generalizing acc with
  | zero => simp [greatestBelow]
  | succ b ih => unfold greatestBelow; split
                 · have := ih (acc + 2 ^ b); rw [pow_succ]; omega
                 · have := ih acc; rw [pow_succ]; omega

/-- The search answers a number that satisfies the predicate, where it starts from one. -/
theorem greatestBelow_holds (p : Nat → Bool) (bits acc : Nat) (h : p acc = true) : p (greatestBelow p bits acc) = true := by
  induction bits generalizing acc with
  | zero => exact h
  | succ b ih => unfold greatestBelow; split
                 · rename_i hp; exact ih _ hp
                 · exact ih _ h

/-- No greater number in reach satisfies a downward-closed predicate. -/
theorem greatestBelow_greatest (p : Nat → Bool) (hp : ∀ m n, m ≤ n → p n = true → p m = true) (bits acc n : Nat)
    (hn : n < acc + 2 ^ bits) (h : p n = true) : n ≤ greatestBelow p bits acc := by
  induction bits generalizing acc with
  | zero => simp [greatestBelow] at hn ⊢; omega
  | succ b ih =>
    unfold greatestBelow; split
    · apply ih; rw [pow_succ] at hn; omega
    · rename_i hb
      apply ih
      by_contra hc
      exact hb (hp _ n (by omega) h)

/-! ### Powers of ten -/

/-- `powLE a b n e` is the comparison `a ≤ b * 10 ^ (e / n)` of real numbers. -/
theorem powLE_iff (a b n : Nat) (hn : n ≠ 0) (e : Int) :
    powLE a b n e = true ↔ (a : ℝ) ≤ (b : ℝ) * (10 : ℝ) ^ ((e : ℝ) / (n : ℝ)) := by
  have hn' : (n : ℝ) ≠ 0 := by exact_mod_cast hn
  have hpow : ((10 : ℝ) ^ ((e : ℝ) / (n : ℝ))) ^ n = (10 : ℝ) ^ (e : ℝ) := by
    rw [← Real.rpow_natCast, ← Real.rpow_mul (by norm_num), div_mul_cancel₀ _ hn']
  have hpos : (0 : ℝ) < (10 : ℝ) ^ ((e : ℝ) / (n : ℝ)) := Real.rpow_pos_of_pos (by norm_num) _
  have hiff : (a : ℝ) ≤ (b : ℝ) * (10 : ℝ) ^ ((e : ℝ) / (n : ℝ)) ↔ (a : ℝ) ^ n ≤ (b : ℝ) ^ n * (10 : ℝ) ^ (e : ℝ) := by
    rw [← hpow, ← mul_pow]
    exact (pow_le_pow_iff_left₀ (by positivity) (by positivity) hn).symm
  rw [hiff]
  cases e with
  | ofNat k =>
    simp only [powLE, decide_eq_true_eq, Int.ofNat_eq_natCast, Int.cast_natCast, Real.rpow_natCast]
    exact_mod_cast Iff.rfl
  | negSucc k =>
    simp only [powLE, decide_eq_true_eq]
    have : (10 : ℝ) ^ ((Int.negSucc k : ℤ) : ℝ) = ((10 : ℝ) ^ (k + 1))⁻¹ := by
      rw [Real.rpow_intCast]; rfl
    rw [this, ← div_eq_mul_inv, le_div_iff₀ (by positivity)]
    exact_mod_cast Iff.rfl

/-! ### Clamps -/

theorem clampGain_ge {low high g : Int} (h : low ≤ high) : low ≤ clampGain low high g := by
  unfold clampGain; (repeat' split) <;> omega

theorem clampGain_le {low high g : Int} (h : low ≤ high) : clampGain low high g ≤ high := by
  unfold clampGain; (repeat' split) <;> omega

/-! ### Levels -/

/-- A level of at most `k` steps is one of at most every greater number of steps. -/
theorem levelAtMost_mono {m : Nat} {c k k' : Int} (hk : k ≤ k') (h : levelAtMost m c k = true) : levelAtMost m c k' = true := by
  unfold levelAtMost at *
  rw [powLE_iff _ _ _ (by norm_num)] at *
  refine le_trans h ?_
  gcongr
  · norm_num

/-- A magnitude is under its peak level, where the level lies in the search's reach. -/
theorem levelAtMost_peakLevel {m : Nat} {c : Int} (h : levelAtMost m c 200 = true) : levelAtMost m c (peakLevel m c) = true := by
  unfold peakLevel
  generalize hp : (fun n : Nat => n == 0 || !levelAtMost m c (-1200 + (n : Int) - 1)) = p
  have hdown : ∀ m' n', m' ≤ n' → p n' = true → p m' = true := by
    intro a b hab hb
    rw [← hp] at hb ⊢
    simp only [Bool.or_eq_true, beq_iff_eq, Bool.not_eq_true'] at hb ⊢
    rcases Nat.eq_zero_or_pos a with ha | ha
    · exact Or.inl ha
    · right
      rcases hb with hb | hb
      · omega
      · by_contra hc
        rw [Bool.not_eq_false] at hc
        rw [levelAtMost_mono (by omega) hc] at hb
        exact absurd hb (by simp)
  have hlt := greatestBelow_lt p 13 0
  by_contra hc
  have hnext : p (greatestBelow p 13 0 + 1) = true := by
    rw [← hp] at hc ⊢
    simp only [Bool.or_eq_true, beq_iff_eq, Bool.not_eq_true']
    right
    rw [Bool.not_eq_true] at hc
    convert hc using 2
    push_cast; omega
  have hsmall : greatestBelow p 13 0 + 1 ≤ 1400 := by
    by_contra hbig
    have h1401 : p 1401 = true := hdown _ _ (by omega) hnext
    rw [← hp] at h1401
    simp at h1401
    rw [h] at h1401
    exact absurd h1401 (by simp)
  have := greatestBelow_greatest p hdown 13 0 _ (by omega) hnext
  omega

/-- A peak level is at most +20.0 dBFS for a sample's magnitude at a gain of at most +20.00 dB. -/
theorem levelAtMost_200 {m : Nat} {c : Int} (hm : m ≤ fullScale) (hc : c ≤ 2000) : levelAtMost m c 200 = true := by
  unfold levelAtMost
  rw [powLE_iff _ _ _ (by norm_num)]
  have h1 : (m : ℝ) ≤ (fullScale : ℝ) := by exact_mod_cast hm
  have h2 : (1 : ℝ) ≤ (10 : ℝ) ^ (((10 * 200 - c : Int) : ℝ) / ((2000 : Nat) : ℝ)) := by
    apply Real.one_le_rpow (by norm_num)
    apply div_nonneg _ (by norm_num)
    have : (0 : Int) ≤ 10 * 200 - c := by omega
    exact_mod_cast this
  nlinarith [h1, h2, (by positivity : (0 : ℝ) ≤ (fullScale : ℝ))]

theorem peakLevel_le {m : Nat} {c : Int} (hm : m ≤ fullScale) (hc : c ≤ 2000) : peakLevel m c ≤ 200 := by
  unfold peakLevel
  generalize hp : (fun n : Nat => n == 0 || !levelAtMost m c (-1200 + (n : Int) - 1)) = p
  have hh : p (greatestBelow p 13 0) = true := greatestBelow_holds p 13 0 (by rw [← hp]; rfl)
  by_contra hcon
  rw [← hp] at hh hcon
  simp only [Bool.or_eq_true, beq_iff_eq, Bool.not_eq_true'] at hh
  rcases hh with hh | hh
  · rw [hh] at hcon; simp at hcon
  · rw [levelAtMost_mono (by omega) (levelAtMost_200 hm hc)] at hh
    exact absurd hh (by simp)

/-- The greatest need is 40.0 dB (R139, R150). -/
theorem guardNeed_le {m : Nat} {c ceiling : Int} (hm : m ≤ fullScale) (hc : c ≤ 2000) (hk : -200 ≤ ceiling) :
    guardNeed m c ceiling ≤ 400 := by
  have := peakLevel_le hm hc
  unfold guardNeed; omega

/-- The magnitude of a sample is at most full scale. -/
theorem sample_natAbs_le (x : Sample) : x.toInt.natAbs ≤ fullScale := by
  have h1 := x.toInt_lt (w := 24)
  have h2 := x.le_toInt (w := 24)
  unfold fullScale
  norm_num at h1 h2
  omega

end Sys2Proof.Machine
end

