-- ==== Sys2Proof/Laws/Records.lean ====
section
/-! SUPPORT. What a command can do to the programme records, said once: a property of records that every named change of a record
keeps, every command keeps. -/

namespace Sys2Proof.Machine

/-- The changes of a programme record that a command can make, each of which keeps `R`. The fields are: a change of neither state
nor presence (a generation, a profile, a count); a window report; a state part; OPEN; CLOSE; a reset. -/
structure RecordRule (i : Instr) (R : Prog → ProgRecord → Prop) : Prop where
  same : ∀ p r r', ProgRecord.state r' = r.state → r'.presence = r.presence → R p r → R p r'
  report : ∀ p r q l, r.state ≠ .unused → R p r → R p (r.afterReport q l)
  move : ∀ p r st, r.state ≠ .unused → st = .held ∨ st = .overridden ∨ st = r.presence.released → R p r → R p (r.toState st)
  opens : i = .openProgramme → ∀ p r q, r.state = .unused → R p r → R p (r.opened q)
  closes : i = .closeProgramme → ∀ p r, r.state ≠ .unused → R p r → R p r.closed
  resets : (∃ x, i = .pinReset x) ∨ i = .restart → ∀ p, R p .reset

/-- Every programme record satisfies `R`. -/
def State.AllRecords (s : State) (R : Prog → ProgRecord → Prop) : Prop := ∀ p : Prog, R p s.progs[p]

namespace State.AllRecords

variable {i : Instr} {R : Prog → ProgRecord → Prop} {s t : State}

theorem congr (h : s.AllRecords R) (e : t.progs = s.progs) : t.AllRecords R := by
  unfold State.AllRecords; rw [e]; exact h

theorem set (h : s.AllRecords R) (p : Prog) (r : ProgRecord) (e : t.progs = s.progs.set p r) (hr : R p r) :
    t.AllRecords R := by
  intro q; rw [e]; simp only [Fin.getElem_fin, Vector.getElem_set]; split
  · rename_i hpq; rw [← Fin.ext hpq]; exact hr
  · exact h q

theorem moveTo (H : RecordRule i R) (h : s.AllRecords R) (p : Prog) (st : ProgState) (ho : s.progs[p].state ≠ .unused)
    (hst : st = .held ∨ st = .overridden ∨ st = s.progs[p].presence.released) : (s.moveTo p st).AllRecords R :=
  h.set p _ rfl (H.move p _ st ho hst (h p))

theorem reportWindow (H : RecordRule i R) (h : s.AllRecords R) (p l) : (s.reportWindow p l).AllRecords R := by
  unfold State.reportWindow; split
  · rename_i ho; exact h.set p _ rfl (H.report p _ _ l ((opened_iff s p).mp ho) (h p))
  · exact h

theorem startSegment (H : RecordRule i R) (h : s.AllRecords R) (p) : (s.startSegment p).AllRecords R :=
  h.set p _ rfl (H.same p s.progs[p] _ rfl rfl (h p))

theorem startHeldSegment (H : RecordRule i R) (h : s.AllRecords R) (p) : (s.startHeldSegment p).AllRecords R := by
  unfold State.startHeldSegment; split
  · exact startSegment H h p
  · exact h

theorem settleWindows (H : RecordRule i R) (h : s.AllRecords R) : s.settleWindows.AllRecords R := by
  unfold State.settleWindows; split
  · refine congr (s := allProgs.foldl (State.settleWindow _) s) ?_ rfl
    apply foldl_invariant (P := fun s => s.AllRecords R) _ _ h
    intro u p hu; unfold State.settleWindow; split
    · exact startSegment H hu p
    · split
      · unfold State.completeWindow; dsimp only; apply reportWindow H; split <;> exact hu.congr (by simp)
      · exact hu
  · exact h

theorem meterSettling (H : RecordRule i R) (h : s.AllRecords R) : s.meterSettling.AllRecords R := by
  apply foldl_invariant (P := fun s => s.AllRecords R) _ _ h
  intro u p hu; unfold State.takeResetMark; split
  · exact startSegment H (s := u.setMeter p _) (hu.congr rfl) p
  · exact hu

theorem setProfile (H : RecordRule i R) (h : s.AllRecords R) (p q) : (s.setProfile p q).AllRecords R :=
  h.set p _ rfl (H.same p s.progs[p] _ rfl rfl (h p))

theorem skipCue (H : RecordRule i R) (h : s.AllRecords R) (p) : (s.skipCue p).AllRecords R :=
  h.set p _ rfl (H.same p s.progs[p] _ rfl rfl (h p))

theorem profilePart (H : RecordRule i R) (h : s.AllRecords R) (e) : (s.profilePart e).AllRecords R := by
  unfold State.profilePart; split
  · exact setProfile H h _ _
  · exact h

theorem completeCue (H : RecordRule i R) (h : s.AllRecords R) (e f) : (completeCue e f s).AllRecords R := by
  have hp := profilePart H h e
  unfold Machine.completeCue; split
  · unfold completeSegment; dsimp only
    (repeat' split) <;> first | exact h | exact hp | exact congr hp rfl | exact skipCue H hp _
  · unfold completeSwitch; (repeat' split) <;> first | exact h | exact hp | exact congr hp rfl | exact skipCue H hp _
  · unfold completeHold
    split <;> first
      | exact h
      | exact skipCue H h _
      | (rename_i hs; exact congr (moveTo H h _ _ (by rw [hs]; decide) (Or.inl rfl)) rfl)
  · unfold completeRelease
    split <;> first
      | exact h
      | exact skipCue H h _
      | (rename_i hs; exact congr (moveTo H h _ _ (by rw [hs]; decide) (Or.inr (Or.inr rfl))) rfl)
  · unfold completePreset; split <;> first | exact h.congr rfl | exact skipCue H h _

theorem operationEffects (H : RecordRule i R) (h : s.AllRecords R) (f) : (operationEffects f s).AllRecords R := by
  unfold Machine.operationEffects; split
  · exact h.congr (by simp)
  · exact h.congr (by simp)
  · exact completeCue H h _ f
  · unfold completeDirective; split
    · unfold completeExchange; dsimp only
      (repeat' split) <;> first | exact h.congr rfl | exact congr (setProfile H h _ _) rfl
    · unfold completeForce; dsimp only; split
      · exact h.congr rfl
      · rename_i ho
        refine congr (s := s.moveTo f.prog .overridden) (moveTo H h _ _ ?_ (Or.inr (Or.inl rfl))) (by simp)
        simpa [State.opened] using ho
    · unfold completeGainRelease; split
      · rename_i hs; exact congr (moveTo H h _ _ (by rw [hs]; decide) (Or.inr (Or.inr rfl))) rfl
      · exact h.congr rfl
  · exact h.congr (by simp)

theorem onEngine (H : RecordRule i R) (h : s.AllRecords R) (k) : (onEngine k Machine.operationEffects s).AllRecords R := by
  apply onEngine_cases (P := fun u => State.AllRecords u R) h; intro f _ _; unfold State.finish; split
  · exact h.congr (by simp)
  · exact congr (operationEffects H h f) rfl

theorem settleBeforeBoundary (H : RecordRule i R) (h : s.AllRecords R) : s.settleBeforeBoundary.AllRecords R := by
  unfold State.settleBeforeBoundary; dsimp only
  (repeat' split) <;> first | exact settleWindows H h | exact onEngine H (settleWindows H h) _

theorem boundaryWork (H : RecordRule i R) (h : s.AllRecords R) (t e) : (s.boundaryWork t e).AllRecords R := by
  unfold State.boundaryWork; dsimp only; split
  · exact h.congr (by simp)
  · apply meterSettling H; exact h.congr (by simp)

theorem startSuperframe (H : RecordRule i R) (h : s.AllRecords R) (w) : (s.startSuperframe w).AllRecords R := by
  have h1 : (s.atStart w).AllRecords R := by
    unfold State.atStart; split
    · exact congr (settleBeforeBoundary H h) rfl
    · exact h.congr rfl
  apply startSuperframe_cases (P := fun u => State.AllRecords u R)
  · intro _; exact h1.congr rfl
  · intro u e o _ hu
    have h2 : u.AllRecords R := by rcases hu with rfl | rfl <;> exact h1.congr rfl
    exact congr (boundaryWork H h2 _ e) rfl

theorem frameArrives (H : RecordRule i R) (h : s.AllRecords R) (f) : (s.frameArrives f).AllRecords R := by
  apply frameArrives_cases (P := fun u => State.AllRecords u R)
  · intro _; exact h.congr (by simp)
  · intro _; exact h.congr (by simp)
  · intro _
    have h2 : (s.takeOwedTimeout.setRx s.takeOwedTimeout.rx.heard).AllRecords R := h.congr (by simp)
    apply heldFrame_cases (P := fun u => State.AllRecords u R)
    · intro _; exact congr (startSuperframe H h2 f.service) (by simp)
    all_goals intros; exact h2.congr (by simp)

end State.AllRecords

/-- A property of programme records that every named change of a record keeps, the commands keep. -/
theorem exec_records {i : Instr} {R : Prog → ProgRecord → Prop} {s t : State} (H : RecordRule i R) (h : s.AllRecords R)
    (e : exec i s = .next t) : t.AllRecords R := by
  have ans : ∀ c, (s.answer c .badValue []).AllRecords R := fun c => h.congr rfl
  cases i <;> simp only [exec] at e
  case pinReset x => cases e; intro p; simpa [State.afterReset] using H.resets (Or.inl ⟨x, rfl⟩) p
  case inboundFrame f => cases e; exact h.frameArrives H f
  case windowCompletion => cases e; exact h.settleWindows H
  case grant => cases e; split <;> exact h.congr (by simp)
  case slotMap =>
    cases e; apply onRequest_cases (P := fun u => State.AllRecords u R) h (fun c _ => ans c); intro c _
    unfold mapRequest; dsimp only; (repeat' split) <;> try (refine h.congr ?_; simp only [State.answer_progs]; done)
    exact h.set _ _ rfl (H.same _ s.progs[_] _ rfl rfl (h _))
  case openProgramme =>
    cases e; apply onRequest_cases (P := fun u => State.AllRecords u R) h (fun c _ => ans c); intro c _
    unfold openRequest; (repeat' split) <;> try (exact h.congr rfl)
    rename_i p _ _ ho
    refine h.set p (s.progs[p].opened _) rfl (H.opens rfl p _ _ (by simpa [State.opened] using ho) (h p))
  case closeProgramme =>
    cases e; apply onRequest_cases (P := fun u => State.AllRecords u R) h (fun c _ => ans c); intro c _
    unfold closeRequest; split
    · exact h.congr rfl
    split
    · rename_i p _ ho
      have h1 : (s.startHeldSegment p).AllRecords R := h.startHeldSegment H p
      have h2 : ((s.startHeldSegment p).reportEmptied p).AllRecords R := h1.congr (by simp)
      refine h2.set p (((s.startHeldSegment p).reportEmptied p).progs[p].closed) rfl (H.closes rfl p _ ?_ (h2 p))
      rw [show ((s.startHeldSegment p).reportEmptied p).progs = (s.startHeldSegment p).progs by simp, startHeldSegment_state]
      exact (opened_iff s p).mp ho
    · exact h.congr rfl
  case presenceRead =>
    cases e; apply onRequest_cases (P := fun u => State.AllRecords u R) h (fun c _ => ans c); intro c _ p
    have : R p { s.progs[p] with reference := s.progs[p].presence } := H.same p s.progs[p] _ rfl rfl (h p)
    simpa [readPresence] using this
  case restart =>
    cases e; apply onRequest_cases (P := fun u => State.AllRecords u R) h (fun c _ => ans c); intro c _ p
    simpa [restartPart] using H.resets (Or.inr rfl) p
  all_goals
    cases e
    first
    | exact h.onEngine H _
    | exact onRequest_cases (P := fun u => State.AllRecords u R) h (fun c _ => ans c) (fun c _ => h.congr (by simp))
    | exact h.congr (by simp)

/-- A programme that is not UNUSED stays so through every command but CLOSE, RESTART and a pin reset. -/
theorem exec_opened {i : Instr} {s t : State} (e : exec i s = .next t) (hc : i ≠ .closeProgramme) (hr : i ≠ .restart)
    (hp : ∀ x, i ≠ .pinReset x) (p : Prog) (ho : s.opened p = true) : t.opened p = true := by
  have H : RecordRule i fun q r => q = p → r.state ≠ .unused := by
    refine ⟨fun q r r' e1 _ h hq => by rw [e1]; exact h hq, ?_, ?_, fun _ q r n _ h hq => by simp [ProgRecord.opened],
      fun h => absurd h hc, fun h => ?_⟩
    · intro q r x l hs _ _
      unfold ProgRecord.afterReport ProgRecord.toState presenceState
      have : (r.report x l).state = r.state := rfl
      (repeat' split) <;> simp_all
    · intro q r st hs hst _ _
      unfold ProgRecord.toState
      split
      · exact hs
      · rcases hst with rfl | rfl | rfl
        · simp
        · simp
        · cases r.presence <;> simp [Presence.released]
    · rcases h with ⟨x, h⟩ | h
      · exact absurd h (hp x)
      · exact absurd h hr
  have hs : s.AllRecords fun q r => q = p → r.state ≠ .unused := by
    rintro q rfl; exact (opened_iff s q).mp ho
  exact (opened_iff t p).mpr (exec_records H hs e p rfl)

end Sys2Proof.Machine
end

