-- ==== Sys2Proof/Laws/Settling.lean ====
section
/-! SUPPORT. The receiver plays no part in what is settled before a block boundary is marked: completing the windows and the operation
in flight commutes with a change of the receiver, so that the state settled after a frame's receiver update is the state settled
before it. -/

namespace Sys2Proof.Machine

variable (s : State) (r : Receiver)

theorem reportWindow_setRx (p : Prog) (l : Option Int) : (s.setRx r).reportWindow p l = (s.reportWindow p l).setRx r := by
  unfold State.reportWindow
  cases h : s.opened p
  · rw [if_neg (by rw [show (s.setRx r).opened p = s.opened p from rfl, h]; decide), if_neg (by decide)]
  · rw [if_pos (by rw [show (s.setRx r).opened p = s.opened p from rfl, h]), if_pos rfl]; rfl

theorem completeWindow_setRx (p : Prog) (blocks : List BlockPower) :
    (s.setRx r).completeWindow p blocks = (s.completeWindow p blocks).setRx r := by
  unfold State.completeWindow
  dsimp only
  cases h : s.tracking p
  · rw [if_neg (by rw [show (s.setRx r).tracking p = s.tracking p from rfl, h]; decide), if_neg (by decide),
      ← reportWindow_setRx]; rfl
  · rw [if_pos (by rw [show (s.setRx r).tracking p = s.tracking p from rfl, h]), if_pos rfl, ← reportWindow_setRx]; rfl

theorem settleWindow_setRx (starts : ProgSet) (p : Prog) :
    State.settleWindow starts (s.setRx r) p = (State.settleWindow starts s p).setRx r := by
  unfold State.settleWindow
  rw [State.setRx_meters]
  split
  · rfl
  · cases s.meters[p].complete with
    | none => rfl
    | some blocks => exact completeWindow_setRx s r p blocks

theorem settleWindows_setRx : (s.setRx r).settleWindows = s.settleWindows.setRx r := by
  unfold State.settleWindows
  simp only [State.setRx_heldStarts]
  split
  · rename_i starts _
    have : ∀ (l : List Prog) (s : State), l.foldl (State.settleWindow starts) (s.setRx r) = (l.foldl (State.settleWindow starts) s).setRx r := by
      intro l
      induction l with
      | nil => intro s; rfl
      | cons p l ih => intro s; rw [List.foldl_cons, List.foldl_cons, settleWindow_setRx, ih]
    rw [this]; rfl
  · rfl

theorem completeAutomatic_setRx (f : InFlight) : completeAutomatic f (s.setRx r) = (completeAutomatic f s).setRx r := by
  unfold completeAutomatic
  rw [State.setRx_progs, show (s.setRx r).proposedGain f.snap ((s.setRx r).activeProfile f.prog) =
    s.proposedGain f.snap (s.activeProfile f.prog) from rfl]
  by_cases h1 : s.progs[f.prog].generation ≠ f.snap.generation
  · rw [if_pos h1, if_pos h1]; unfold State.reenter; cases f.op <;> rfl
  · rw [if_neg h1, if_neg h1]
    by_cases h2 : f.snap.staged ≠ 0
    · rw [if_pos h2, if_pos h2]
    · rw [if_neg h2, if_neg h2]; cases s.proposedGain f.snap (s.activeProfile f.prog) <;> rfl

theorem profilePart_setRx (e : Cue) : (s.setRx r).profilePart e = (s.profilePart e).setRx r := by
  unfold State.profilePart; cases e.carried <;> rfl

theorem completeCue_setRx (e : Cue) (f : InFlight) : completeCue e f (s.setRx r) = (completeCue e f s).setRx r := by
  unfold completeCue
  cases e.kind with
  | segment =>
    dsimp only [completeSegment]
    rw [State.setRx_progs, profilePart_setRx, show (s.setRx r).computedGain e f.snap = s.computedGain e f.snap from rfl]
    cases s.progs[e.prog].state with
    | unused => rfl
    | tracking => cases (e.gain.or (s.computedGain e f.snap)).isSome || e.snap <;> rfl
    | _ => cases e.gain.isSome || e.snap <;> rfl
  | switch =>
    dsimp only [completeSwitch]
    rw [State.setRx_progs, profilePart_setRx, show (s.setRx r).computedGain e f.snap = s.computedGain e f.snap from rfl]
    cases s.progs[e.prog].state with
    | tracking => cases s.computedGain e f.snap <;> rfl
    | _ => rfl
  | hold => dsimp only [completeHold]; rw [State.setRx_progs]; cases s.progs[e.prog].state <;> rfl
  | release => dsimp only [completeRelease]; rw [State.setRx_progs]; cases s.progs[e.prog].state <;> rfl
  | preset => dsimp only [completePreset]; rw [State.setRx_progs]; cases s.progs[e.prog].state <;> rfl

theorem completeDirective_setRx (d : DirectiveOp) (reply : Reply) (f : InFlight) :
    completeDirective d reply f (s.setRx r) = (completeDirective d reply f s).setRx r := by
  unfold completeDirective
  cases d with
  | exchange expected new =>
    dsimp only [completeExchange]
    rw [State.setRx_progs, show (s.setRx r).opened f.prog = s.opened f.prog from rfl]
    cases s.opened f.prog
    · rfl
    · by_cases h : expected = none ∨ expected = some s.progs[f.prog].profile
      · rw [if_pos h, if_pos h]; rfl
      · rw [if_neg h, if_neg h]; rfl
  | force gain snap =>
    dsimp only [completeForce]
    rw [show (s.setRx r).opened f.prog = s.opened f.prog from rfl]
    cases s.opened f.prog <;> rfl
  | release =>
    dsimp only [completeGainRelease]
    rw [State.setRx_progs]
    by_cases h : s.progs[f.prog].state = .overridden
    · rw [if_pos h, if_pos h]; rfl
    · rw [if_neg h, if_neg h]; rfl

theorem completeProbe_setRx (q : ProfileNo) (reply : Reply) (f : InFlight) :
    completeProbe q reply f (s.setRx r) = (completeProbe q reply f s).setRx r := by
  unfold completeProbe
  rw [show (s.setRx r).opened f.prog = s.opened f.prog from rfl]
  cases s.opened f.prog
  · rfl
  · cases f.snap.computation <;> rfl

theorem operationEffects_setRx (f : InFlight) : operationEffects f (s.setRx r) = (operationEffects f s).setRx r := by
  unfold operationEffects
  cases f.op with
  | retune | rescale => exact completeAutomatic_setRx s r f
  | cue e => exact completeCue_setRx s r e f
  | directive d reply => exact completeDirective_setRx s r d reply f
  | probe q reply => exact completeProbe_setRx s r q reply f

theorem finish_setRx (f : InFlight) : (s.setRx r).finish f operationEffects = (s.finish f operationEffects).setRx r := by
  unfold State.finish State.discardOperation
  rw [operationEffects_setRx]
  cases f.discard
  · rfl
  · cases f.op <;> rfl

theorem completeOperation_setRx : (s.setRx r).completeOperation = s.completeOperation.setRx r := by
  unfold State.completeOperation onEngine
  rw [State.setRx_engine]
  cases s.engine with
  | none => rfl
  | some f => exact finish_setRx s r f

theorem settleBeforeBoundary_setRx : (s.setRx r).settleBeforeBoundary = s.settleBeforeBoundary.setRx r := by
  unfold State.settleBeforeBoundary
  dsimp only
  rw [settleWindows_setRx, State.setRx_engine]
  cases s.settleWindows.engine with
  | none => rfl
  | some f =>
    by_cases h : 1 ≤ f.boundaries
    · exact (if_pos h).trans ((completeOperation_setRx _ r).trans (congrArg (State.setRx · r) (if_pos h).symm))
    · exact (if_neg h).trans (congrArg (State.setRx · r) (if_neg h).symm)

end Sys2Proof.Machine
end

