-- ==== Sys2Proof/Tests/Slice0.lean ====
section
/-! SUPPORT. Tests: the manual's worked examples on small states, and for every statement of Obligations.lean that has hypotheses a
state and operands that meet them together (the theorems named `witness_…`).

No word of the opcode table spells a command, and no term of `Instr` is ill formed (WellFormed.lean), so the two tests of those
files say just that. -/

namespace Sys2Proof.Tests
open Sys2Proof.Machine

set_option Elab.async false

/-! ### Small states -/

/-- A state after a command. -/
def ran (i : Instr) (s : State) : State :=
  match exec i s with
  | .next t => t
  | .fault _ | .refused _ => s

/-- A cell addressed to link address 0x40 from 0x01 with tag 7, its check left 0. -/
def cell (kind target index count : Byte) (payload : List Byte) : Cell :=
  [0x40, 0x01, kind, 0, 7, target, index, count, byteNat payload.length] ++ payload ++ List.replicate (47 - payload.length) 0

/-- The part after reset. -/
def base : State := State.reset

/-- A state with a request in hand. -/
def hand (s : State) (c : Cell) : State := { s with cells := { s.cells with inHand := some c } }

/-- A state with programme 3 in a state and of a presence, under profile 2. -/
def prog3 (s : State) (st : ProgState) (pr : Presence) : State :=
  { s with progs := s.progs.set 3 { ProgRecord.reset with state := st, presence := pr, profile := 2 } }

/-- A receiver in a lock state that has counted `n` frames of the superframe of link time `t`. -/
def receiver (lock : LockState) (n : Nat) (t : LinkTime) : Receiver :=
  { Receiver.reset with
    lock := lock, words := List.replicate n 0x6B2D0000, time := t, expected := some (t + 16)
    settle := if lock = .settling then some 15 else none }

/-- A state on the link: an outbound superframe of the same count in progress. -/
def onLink (s : State) (lock : LockState) (n : Nat) (t : LinkTime) : State :=
  { s with
    rx := receiver lock n t
    tx := { time := t, absent := false, bypass := false, hop := 0, cell := [], source := .idle, sent := n } }

/-- A snapshot of a tracking programme under profile 2 at a target of 0, with a measured value under BLEND alone. -/
def snapshot (staged : Nat) : Snapshot :=
  { state := .tracking, generation := 0, profile := 2, target := 0, staged := staged, bank := some (0, .a)
    computation := some
      { profile := Profile.reset, short := none, integrated := none, blend := some (-270), pressure := false } }

/-- An operation of programme 3. -/
def operation (op : Operation) (discard : Bool) (staged : Nat) : InFlight :=
  { op := op, prog := 3, discard := discard, boundaries := 0, snap := snapshot staged }

/-- A state with an operation of programme 3 in flight. -/
def flying (s : State) (op : Operation) (discard : Bool) : State := { s with engine := some (operation op discard 0) }

/-- A reply entry. -/
def reply : Reply := { origin := 1, kind := 0x0B, tag := 7, target := 3, index := 0, count := 0 }

/-- A cue of programme 3. -/
def cue (kind : CueKind) (block : LinkTime) (due : Bool) : Cue :=
  { prog := 3, block := block, kind := kind, profile := none, gain := none, snap := false, due := due, late := false }

/-- A tracking programme 3. -/
def tracked : State := prog3 base .tracking .present

/-! ### The operands and the decoder -/

theorem test_noWordSpellsACommand : decodeTableWord 8 0 = none ∧ decodeTableWord 32 0x6B2D0000 = none := by decide

theorem test_everyTermIsWellFormed : ∀ i : Instr, i.wellFormed = true := by intro i; cases i <;> rfl

theorem test_aWordLeavesTheQueue : base.withFetchWord 8 0 = base := rfl

/-! ### The manual's figures -/

theorem test_checkOfTheExampleCharacters : crc [0x31, 0x32, 0x33, 0x34, 0x35, 0x36, 0x37, 0x38, 0x39] = 0x29B1 := by
  decide +kernel

theorem test_windowOfPower0004 : windowLoudness (List.replicate 75 ⟨2 ^ 47, 5⟩) = some (-247) := by decide +kernel

theorem test_silentWindow : windowLoudness (List.replicate 75 ⟨0, 64⟩) = none := by decide +kernel

theorem test_shortTermOfTheRing : shortTermValue [-200, -300, -250] = some (-233) := by decide +kernel

theorem test_integratedOfTheHistogram :
    integratedValue ((((Vector.replicate 300 0).set 149 6).set 229 20).set 230 10) (-100) = some (-240) := by decide +kernel

/-- The law of the example of section 4.4. -/
def exampleLaw : LawBank :=
  { points := ((((((Vector.replicate 32 ⟨0, 0⟩).set 0 ⟨-200, 1200⟩).set 1 ⟨-60, 400⟩).set 2 ⟨-10, 0⟩).set 3 ⟨10, 0⟩).set 4
      ⟨60, -400⟩).set 5 ⟨200, -1200⟩
    count := 6 }

theorem test_lawOfTheExample :
    exampleLaw.gainAt (-250) = 1200 ∧ exampleLaw.gainAt (-35) = 200 ∧ exampleLaw.gainAt (-13) = 24 ∧
      exampleLaw.gainAt 4 = 0 ∧ exampleLaw.gainAt 83 = -531 := by decide

theorem test_shadowOfTheSwapExample :
    ({ exampleLaw with points := (exampleLaw.points.set 1 ⟨-20, 0⟩).set 2 ⟨-20, 0⟩, count := 4 } : LawBank).firstBad
      = some 2 := by decide

theorem test_rampOfTheExample :
    rampMove { Profile.reset with raiseSlew := 255 } 0 (-200) 50 = -137 ∧
      rampMove { Profile.reset with raiseSlew := 255 } 1 (-137) 50 = -73 ∧
      rampMove { Profile.reset with raiseSlew := 255 } 3 (-9) 50 = 50 := by decide

theorem test_rampDownOfTheExample :
    [0, 1, 2, 3].map (fun k => rampMove { Profile.reset with lowerSlew := 6 } k 50 (-100)) = [49, 48, 49, 48] := by decide

/-- A PRESET without snap followed by a HOLD at one boundary leaves the target at the current gain (R146). -/
theorem test_presetThenHold :
    (GainRecord.boundaryWork Profile.reset 64 false 0 { GainRecord.reset with
      current := 50, staged := [⟨0, .preset, some 300, false, false⟩, ⟨64, .hold, none, false, false⟩] }).target = 50 := by
  decide +kernel

theorem test_guardOfTheExample : guardStep 0 5 0 = 0 ∧ guardStep 14 5 0 = 14 ∧ guardStep 2 5 14 = 9 ∧ guardStep 0 5 9 = 4 ∧
    guardStep 0 5 4 = 0 := by decide

/-- Block 2 of the guard example: a largest sample of -2.63 dBFS at +3.00 dB peaks at +0.4 dBFS and needs 1.4 dB. -/
theorem test_needOfTheExample : peakLevel 6197088 300 = 4 ∧ guardNeed 6197088 300 (-10) = 14 := by decide +kernel

theorem test_needAtFullScale : guardNeed 8388608 2000 (-200) = 400 := by decide +kernel

theorem test_gainOfZeroKeepsTheSample : gainSample 1000 0 = 1000 ∧ gainSample (-1000) 0 = -1000 := by decide +kernel

theorem test_gainIsLimited : gainSample 8388607 2000 = 8388607 ∧ gainSample (-8388608) 2000 = -8388608 := by decide +kernel

theorem test_gainRoundsHalvesAway : gainSample 5 (-2000) = 1 ∧ gainSample (-5) (-2000) = -1 ∧ gainSample 4 (-2000) = 0 := by
  decide +kernel

theorem test_dueTimes : dueBlock 4294967290 = 0 ∧ dueBlock 412000 = 412032 ∧ dueBlock 412032 = 412032 := by decide

theorem test_slewsOfAGroup : rampSteps 255 0 = 63 ∧ rampSteps 255 1 = 64 ∧ rampSteps 255 3 = 64 := by decide

/-! ### Commands -/

theorem test_pinResetOwesANotice : (ran (.pinReset ⟨5, 2⟩) base).address = 0x45 ∧
    (ran (.pinReset ⟨5, 2⟩) base).notice.state = .sending := by decide +kernel

/-- R23: the outbound superframe that begins at the release keeps hop address 0x00 through two inbound frames that bring a hop
address of their own. -/
theorem test_firstSuperframeKeepsItsHopAddress :
    (ran .referenceFramePeriod (ran (.inboundFrame ⟨silence, 0x1230⟩) (ran (.inboundFrame ⟨silence, 0x6B2D0007⟩)
      (ran (.pinReset ⟨5, 2⟩) base)))).sent.map (·.service) = some 0x6B2D0200 := by decide +kernel

theorem test_firstPeriodSendsTheNotice :
    (let o := (ran .referenceFramePeriod base).tx; (o.time, o.absent, o.source) = (0, true, .notice)) ∧
      (ran .referenceFramePeriod base).sent.map (·.service) = some 0x6B2D0200 := by decide +kernel

theorem test_headerEntersConfirm :
    (ran (.inboundFrame ⟨silence, 0x1230⟩) (ran (.inboundFrame ⟨silence, 0x6B2D0007⟩) base)).rx.lock = .confirm := by
  decide +kernel

theorem test_secondHeaderEntersSettling :
    (ran (.inboundFrame ⟨silence, 0x1240⟩)
      { base with rx := { Receiver.reset with lock := .confirm, words := [0x6B2D0007], time := 0x1230 } }).rx.lock = .settling := by
  decide +kernel

theorem test_settlingEntersRunning :
    (ran (.inboundFrame ⟨silence, 0x6B2D0007⟩) (onLink base .settling 16 48)).rx.lock = .running := by decide +kernel

theorem test_twoHeaderErrorsLoseTheLock :
    (ran (.inboundFrame ⟨silence, 3⟩) { onLink base .settling 1 48 with rx := { receiver .settling 1 48 with errorRun := 1 } }).rx.lock
      = .search := by decide +kernel

theorem test_missingFramesLeaveConfirm :
    (ran .missingFrameTimeout (onLink base .confirm 5 0)).rx.lock = .search := by decide +kernel

theorem test_openThenMap :
    ((ran .slotMap (hand (ran .openProgramme (hand base (cell 0x07 2 0 0 [1]))) (cell 0x06 2 8 3 [1, 0]))).members 2).map
      Fin.val = [8, 9, 10] := by decide +kernel

theorem test_mapOfAnUnusedProgramme :
    (ran .slotMap (hand base (cell 0x06 2 8 3 [1, 0]))).cells.responses.map (·.status) = [0x13] := by decide +kernel

theorem test_closeFreesTheSlots :
    (ran .closeProgramme (hand (ran .slotMap (hand tracked (cell 0x06 3 8 3 [1, 0]))) (cell 0x08 3 0 0 []))).members 3 = [] := by
  decide +kernel

theorem test_takeLeavesTheQueue :
    (ran .requestTake { base with cells := { base.cells with requests := [cell 0x01 0 0 0 []] } }).cells.inHand
      = some (cell 0x01 0 0 0 []) := by decide +kernel

theorem test_unknownKind : (ran .unknownRequest (hand base (cell 0x16 0 0 0 []))).cells.responses.map (fun r => (r.kind, r.status))
    = [(0x96, 0x10)] := by decide +kernel

theorem test_ident : (ran .ident (hand base (cell 0x01 0 0 0 []))).cells.responses.map (·.payload)
    = [[0x4E, 0x4C, 0x34, 0x31, 0x32, 1, 0x40, 0, 0, 0, 2, 0, 0, 0, 0]] := by decide +kernel

theorem test_readPastTheSlots : (ran .read (hand base (cell 0x02 0 60 10 [1]))).cells.responses.map
    (fun r => (r.status, r.count, r.payload)) = [(0x01, 4, [0, 0, 0, 0])] := by decide +kernel

theorem test_readOfAnEmptyRing : (ran .read (hand base (cell 0x02 0 0 1 [8]))).cells.responses.map (·.status) = [0x11] := by
  decide +kernel

/-- The record that pin reset leaves in every profile, as a payload. -/
def resetRecord : List Byte :=
  [0xFF, 0x10, 2, 0xFD, 0x44, 0xFF, 0x9C, 0xFD, 0xA8, 50, 0, 50, 0, 0xF8, 0x30, 4, 0xB0, 0, 0, 1, 4, 0xFF, 0xF6, 5, 20]

theorem test_profileWrite : (ran .profileWrite (hand base (cell 0x03 4 0 0 resetRecord))).profiles[4] = Profile.reset := by
  decide +kernel

theorem test_profileWriteNamesTheField :
    (ran .profileWrite (hand base (cell 0x03 4 0 0 (resetRecord.take 20)))).cells.responses.map (fun r => (r.status, r.payload))
      = [(0x12, [13])] := by decide +kernel

theorem test_lawLoadAndSwap :
    (ran .lawSwap (hand (ran .lawLoad (hand base (cell 0x04 1 1 1 [0, 60, 0xFE, 0x70, 2]))) (cell 0x05 0 0 0 [2]))).laws[1].pending
      = true := by decide +kernel

theorem test_participateOff : (ran .participate (hand { tracked with arbiter := { Arbiter.reset with retune := 8 } }
    (cell 0x11 0 0 0 [0, 2]))).arbiter = { Arbiter.reset with retuneOn := false } := by decide +kernel

theorem test_presenceRead : (ran .presenceRead (hand tracked (cell 0x0F 0 0 0 []))).cells.responses.map (·.payload)
    = [[0, 8, 0, 8]] := by decide +kernel

theorem test_segmentReset : (ran .segmentReset (hand tracked (cell 0x10 3 0 0 []))).resetMarks = 8 := by decide +kernel

theorem test_noticeSetRefused : (ran .noticeSet (hand base (cell 0x14 0 0 0 [0, 0, 0, 1, 33]))).notice = base.notice := by
  decide +kernel

theorem test_conditionsClear : (ran .conditionsClear (hand base (cell 0x13 0 0 0 [0, 2]))).notice.flags = 0 := by decide +kernel

theorem test_conditionsRead : (ran .conditionsRead (hand base (cell 0x12 0 0 0 []))).cells.responses.map (·.payload) = [[0, 2]] := by
  decide +kernel

theorem test_restart : (ran .restart (hand tracked (cell 0x15 0 0 0 []))).progs[3].state = .unused := by decide +kernel

/-- The state of the run of posts of section 6.2, at link time 409 616 with a warning level of 4. -/
def posting : State :=
  { onLink tracked .running 5 409616 with notice := { NoticeUnit.reset with warnLevel := 4 } }

theorem test_latePostIsDue :
    (ran .cuePost (hand posting (cell 0x09 3 0 0 [0, 6, 0x3D, 0xA8, 4, 2, 0, 0, 0]))).cues
      = [{ prog := 3, block := 409024, kind := .preset, profile := none, gain := some 0, snap := false, due := true, late := true }] := by
  decide +kernel

theorem test_postTooLate :
    (ran .cuePost (hand posting (cell 0x09 3 0 0 [0, 6, 0x3C, 0x7C, 2, 0]))).cells.responses.map (fun r => (r.status, r.payload))
      = [(0x16, [0, 6, 0x3C, 0x80, 0, 6, 0x40, 0x10])] := by decide +kernel

theorem test_withdraw : (ran .cueWithdraw (hand { tracked with cues := [cue .hold 640 false] } (cell 0x0A 3 0 0 [0, 0, 2, 0x41]))).cues
    = [] := by decide +kernel

theorem test_directiveCancelsARetune :
    (ran .gainRelease (hand (flying tracked .retune false) (cell 0x0D 3 0 0 []))).arbiter.retune = 8 := by decide +kernel

theorem test_probeIsBusy : (ran .probe (hand { tracked with arbiter := { Arbiter.reset with
    probe := some { prog := 0, profile := 0, reply := reply, abort := false } } } (cell 0x0E 3 0 0 [0]))).cells.responses.map (·.status)
    = [0x19] := by decide +kernel

theorem test_grantOfARetune :
    (ran .grant { tracked with arbiter := { Arbiter.reset with retune := 0b1010, retunePointer := some 1 } }).engine.map
      (fun f => (f.op, f.prog)) = some (.retune, 3) := by decide +kernel

theorem test_retuneSetsTheTarget : (ran .retuneCompletion (flying tracked .retune false)).gains[3].target = 300 := by decide +kernel

theorem test_rescaleSetsTheTarget : (ran .rescaleCompletion (flying tracked .rescale false)).gains[3].target = 300 := by
  decide +kernel

theorem test_holdCueHolds : (ran .cueCompletion (flying tracked (.cue (cue .hold 640 true)) false)).gains[3].staged
    = [{ boundary := 768, kind := .hold, gain := none, snap := false, late := false }] := by decide +kernel

theorem test_exchangeMismatch :
    (ran .profileExchangeCompletion (flying tracked (.directive (.exchange (some 0) 4) reply) false)).cells.responses.map
      (fun r => (r.status, r.payload)) = [(0x18, [2])] := by decide +kernel

theorem test_forceAnswersTheTarget :
    (ran .gainForceCompletion (flying tracked (.directive (.force (-2500) true) reply) false)).cells.responses.map (·.payload)
      = [[0xF8, 0x30, 2, 0]] := by decide +kernel

theorem test_releaseByPresence :
    (ran .gainReleaseCompletion (flying (prog3 base .overridden .silent) (.directive .release reply) false)).progs[3].state
      = .dormant := by decide +kernel

theorem test_probeAnswersTheLaw :
    (ran .probeCompletion (flying tracked (.probe 1 reply) false)).cells.responses.map (fun r => r.payload.drop 10)
      = [[0b100, 0xFF, 0xE2, 1, 0x2C, 1, 0x2C]] := by decide +kernel

theorem test_windowWakesAProgramme :
    (ran .windowCompletion { prog3 base .dormant .silent with
      heldStarts := some 0
      meters := base.meters.set 3 { MeterRecord.reset with complete := some (List.replicate 75 ⟨2 ^ 47, 5⟩) } }).progs[3].state
      = .tracking := by decide +kernel

/-- R125: a CLOSE that comes before the window completion of a boundary makes the segment start that the Meter holds, and then its
own increment. -/
theorem test_closeMakesTheHeldStart :
    (let t := ran .closeProgramme (hand { tracked with
       heldStarts := some 8, meters := base.meters.set 3 { MeterRecord.reset with ring := [-230], total := 1 } } (cell 8 3 0 0 []))
     (t.progs[3].state, t.progs[3].generation, t.meters[3].ring, t.meters[3].total, t.heldStarts)
       = (.unused, 2, [], 0, some 0)) := by decide +kernel

/-! ### Witnesses: states and operands that meet the hypotheses of a statement -/

/-- A request cell in hand is held where its kind and length are right. -/
theorem hand_holds {s : State} {code : Nat} {c : Cell} (h : Cell.kind c = code ∧ Cell.payloadLength c ≤ 45) :
    (hand s c).holds code c := ⟨rfl, h.1, h.2⟩

/-- A state whose request queue holds one cell, with so many completed responses and queued directives. -/
def waiting (c : Cell) (responses directives : Nat) : State :=
  { base with
    cells := { base.cells with requests := [c], responses := List.replicate responses (reply.made .done 0 []) }
    arbiter := { Arbiter.reset with
      directives := List.replicate directives { op := .release, prog := 3, reply := reply, abort := false } } }

/-- A state whose retune and rescale sets, pointers and PROBE are as given. -/
def sources (set : ProgSet) (pointer : Option Prog) (probe : Option ProbeEntry) : State :=
  { tracked with arbiter := { Arbiter.reset with
      rescale := set, retune := set, rescalePointer := pointer, retunePointer := pointer, probe := probe } }

/-- A PROBE entry of programme 3. -/
def probeEntry (abort : Bool) : ProbeEntry := { prog := 3, profile := 1, reply := reply, abort := abort }

theorem witness_StepTakesTheFrontCommand :
    ({ base with pending := [.grant] } : State).pending = .grant :: [] ∧ base.pending = [] := by decide +kernel

theorem witness_EveryCommandCompletes : ∀ x, Instr.grant ≠ .pinReset x := by intro x h; cases h

/-- The last place among the responses with the last place of the directive queue; then each reason to wait at its bound. -/
theorem witness_RequestTakeTakesTheHead :
    (let s := waiting (cell 0x0D 3 0 0 []) 4 3
     s.cells.requests = [cell 0x0D 3 0 0 []] ∧ s.cells.inHand = none ∧ s.cells.responses.length + s.reservations = 7 ∧
       s.arbiter.directives.length = 3) ∧
    (waiting (cell 1 0 0 0 []) 7 0).cells.responses.length + (waiting (cell 1 0 0 0 []) 7 0).reservations < 8 ∧
    (hand (waiting (cell 1 0 0 0 []) 0 0) (cell 1 0 0 0 [])).cells.inHand ≠ none ∧
    8 ≤ (waiting (cell 1 0 0 0 []) 8 0).cells.responses.length + (waiting (cell 1 0 0 0 []) 8 0).reservations ∧
    (0x0B ≤ Cell.kind (cell 0x0B 3 0 0 []) ∧ 4 ≤ (waiting (cell 0x0B 3 0 0 []) 0 4).arbiter.directives.length) ∧
    base.cells.requests = [] := by decide +kernel

theorem witness_AnswersAreCellsThatEchoTheirRequest : (reply.made .done 0 (List.replicate 45 7)).payload.length ≤ 45 ∧
    ∃ divide : BitVec 16 → Bool → BitVec 16,
      ∀ r b, divide r b = if r.getLsbD 15 = b then r <<< 1 else (r <<< 1) ^^^ 0x1021 :=
  ⟨by decide, _, fun _ _ => rfl⟩

theorem witness_BadKindsAndLengthsAreRefused :
    (∀ k ∈ [0x00, 0x16, 0xFF], ¬(0x01 ≤ Cell.kind (cell k 0 0 0 []) ∧ Cell.kind (cell k 0 0 0 []) ≤ 0x15)) ∧
    (∀ r ∈ requestRows, Cell.kind (cell (byteNat r.2) 0 0 0 (List.replicate 46 0)) = r.2 ∧
      Cell.payloadLength (cell (byteNat r.2) 0 0 0 (List.replicate 46 0)) = 46) ∧
    (hand base (cell 0 0 0 0 [])).cells.inHand = some (cell 0 0 0 0 []) := by decide +kernel

/-- Every request row with the longest payload: the one hypothesis of IdentReturnsThePartsState, PresenceReadMovesTheReference and
RestartResetsAllButTheLinkSide, and the first of every other statement about a request. -/
theorem witness_IdentReturnsThePartsState : ∀ r ∈ requestRows,
    (hand tracked (cell (byteNat r.2) 3 0 1 (List.replicate 45 0))).holds r.2
      (cell (byteNat r.2) 3 0 1 (List.replicate 45 0)) := by
  intro r h
  exact hand_holds ((by decide +kernel : ∀ r ∈ requestRows, Cell.kind (cell (byteNat r.2) 3 0 1 (List.replicate 45 0)) = r.2 ∧
    Cell.payloadLength (cell (byteNat r.2) 3 0 1 (List.replicate 45 0)) ≤ 45) r h)

theorem witness_RestartResetsAllButTheLinkSide : (hand tracked (cell 0x15 0 0 0 [])).holds 0x15 (cell 0x15 0 0 0 []) :=
  hand_holds (by decide +kernel)

theorem witness_PresenceReadMovesTheReference :
    (hand tracked (cell 0x0F 0 0 0 [])).holds 0x0F (cell 0x0F 0 0 0 []) ∧ (hand tracked (cell 0x0F 0 0 0 [])).PresenceKept ∧
      tracked.progs[4].state = .unused :=
  ⟨hand_holds (by decide +kernel), ⟨by decide +kernel, by decide +kernel, by decide +kernel⟩, by decide +kernel⟩

/-- READ: no table code; code 11; a count of 0; law table 4; the last slot; the first entry of an empty ring; and a subject at each
bound of the tables that take one. -/
theorem witness_ReadReturnsWholeRecords :
    Cell.operand (cell 2 0 0 1 []) 0 = none ∧ Cell.operand (cell 2 0 0 1 [11]) 0 = some 11 ∧
    (Cell.operand (cell 2 0 0 0 [10]) 0 = some 10 ∧ Cell.count (cell 2 0 0 0 [10]) = 0) ∧
    (tracked.tableView 3 4).isNone ∧
    (∃ v, tracked.tableView 1 0 = some v ∧
      256 * ((Cell.operand (cell 2 0 63 1 [1]) 1).getD 0).toNat + Cell.index (cell 2 0 63 1 [1]) < v.records.length) ∧
    (∃ v, tracked.tableView 8 15 = some v ∧ v.records.length ≤ Cell.index (cell 2 15 0 1 [8])) ∧
    (∀ code ∈ [3, 4], (tracked.tableView code 3).isSome ∧ (tracked.tableView code 4).isNone) ∧
    (∀ code ∈ [6, 7, 8], (tracked.tableView code 15).isSome ∧ (tracked.tableView code 16).isNone) :=
  ⟨by decide +kernel, by decide +kernel, by decide +kernel, by decide +kernel, ⟨_, rfl, by decide +kernel⟩,
    ⟨_, rfl, by decide +kernel⟩, by decide +kernel, by decide +kernel⟩

/-- Every table for the lowest and the highest subject it takes; READ STATUS; a record of the Cue Queue, of a staged list and of a ring;
a directive and a PROBE queued; and an engine idle, with an operation that uses a bank, and with one that uses none. -/
theorem witness_ReadTablesHoldTheirRecords :
    tracked.SlotsKept ∧ (∀ code < 11, ∀ subject < 4, (tracked.tableView code subject).isSome) ∧
    (∀ code ∈ [6, 7, 8], (tracked.tableView code 15).isSome) ∧
    (let c := cell 2 0 0 1 [10]; (hand base c).holds 2 c ∧ Cell.operand c 0 = some 10 ∧ Cell.operand c 1 = none ∧
      Cell.index c = 0 ∧ Cell.count c = 1) ∧
    (∀ k : TableNo, Bank.a = base.laws[k].active ∧ Bank.b ≠ base.laws[k].active) ∧
    ({ tracked with cues := [cue .hold 640 false] } : State).cues[0]? = some (cue .hold 640 false) ∧
    (let g : GainRecord := { GainRecord.reset with staged := [⟨64, .hold, none, false, false⟩] }
     (base.gains.set 3 g)[3].staged[0]? = some ⟨64, .hold, none, false, false⟩) ∧
    (base.meters.set 15 { MeterRecord.reset with ring := [-230] })[15].ring[0]? = some (-230) ∧
    (waiting (cell 1 0 0 0 []) 0 4).arbiter.directives[3]? = some { op := .release, prog := 3, reply := reply, abort := false } ∧
    (sources 0 none none).arbiter.probe = none ∧ (sources 0 none (some (probeEntry true))).arbiter.probe = some (probeEntry true) ∧
    tracked.engine = none ∧ (flying tracked .retune false).engine = some (operation .retune false 0) ∧
    (operation .retune false 0).snap.bank = some (0, .a) ∧ (operation .retune false 0).boundaries ≤ 1 ∧
    ({ snapshot 0 with bank := none } : Snapshot).bank = none := by
  refine ⟨⟨by decide +kernel, by decide +kernel⟩, by decide +kernel, by decide +kernel,
    ⟨hand_holds (by decide +kernel), by decide +kernel⟩, ?_⟩
  decide +kernel

/-- The bounds of NOTICE_SET and CONDITIONS_CLEAR. -/
theorem witness_ConditionAndNoticeRequests :
    Cell.operand16 (cell 0x13 0 0 0 [2, 1]) 0 = some 0x201 ∧ Cell.payloadLength (cell 0x13 0 0 0 [1]) < 2 ∧
    Cell.payloadLength (cell 0x14 0 0 0 [7, 0, 15, 1]) < 5 ∧
    (∀ l ∈ [[8, 0, 15, 1, 32], [7, 0, 15, 0, 32], [7, 0, 15, 1, 0], [7, 0, 15, 1, 33], [7, 3, 255, 255, 32], [0, 0, 0, 1, 1]],
      Cell.operand (cell 0x14 0 0 0 l) 0 = l[0]? ∧ (Cell.operand16 (cell 0x14 0 0 0 l) 1).isSome ∧
      Cell.operand (cell 0x14 0 0 0 l) 3 = l[3]? ∧ Cell.operand (cell 0x14 0 0 0 l) 4 = l[4]?) := by decide +kernel

theorem witness_AClaimSetsItsFlag :
    base.notice.flags.getLsbD (Condition.restarted).bit = true ∧ base.notice.flags.getLsbD (Condition.swapDone).bit = false := by
  decide +kernel

/-- The bounds of SLOT_MAP, refusal by refusal, and an accepted map of 8 slots up to slot 63. -/
theorem witness_SlotMapChecksAndMaps :
    (Cell.operand (cell 6 3 0 1 []) 0 = none ∧ ∀ b ∈ [(0 : Byte), 1, 2, 3, 4, 255], Cell.operand (cell 6 3 0 1 [b, 0]) 0 = some b) ∧
    (∀ w ∈ [WeightClass.full, .side, .none], ∀ b ∈ [(1 : Byte), 2], Cell.operand (cell 6 3 0 1 [b, w.code]) 1 = some w.code) ∧
    (∀ w ∈ [WeightClass.full, .side, .none], some (3 : Byte) ≠ some w.code ∧ (none : Option Byte) ≠ some w.code) ∧
    (∀ n ∈ [0, 17], Cell.count (cell 6 3 0 (byteNat n) [1, 0]) = n) ∧ Cell.mapMode (cell 6 3 0 1 [4, 0]) = none ∧
    Cell.mapMode (cell 6 3 0 1 [2, 2]) = none ∧
    (Cell.index (cell 6 3 64 1 [0]) = 64 ∧ Cell.mapMode (cell 6 3 64 1 [0]) = some .pass) ∧
    64 < Cell.index (cell 6 3 63 2 [0]) + Cell.count (cell 6 3 63 2 [0]) ∧ Cell.programme (cell 6 16 0 1 [0]) = none ∧
    (let c := cell 6 3 56 8 [1, 0]
     Cell.mapMode c = some (.member .full) ∧ Cell.programme c = some 3 ∧ Cell.index c + Cell.count c = 64 ∧
       base.progs[3].state = .unused ∧ tracked.progs[3].state ≠ .unused ∧
       (∀ i : SlotNo, Cell.index c ≤ i → (i : Nat) < Cell.index c + Cell.count c →
         tracked.slots[i].owner = none ∧ tracked.slots[i] ≠ .mute) ∧
       (tracked.members 3).length +
         ((namedSlots (Cell.index c) (Cell.count c)).filter fun i => tracked.slots[i].owner != some 3).length = 8) ∧
    (let c := cell 6 3 55 9 [2, 1]
     Cell.mapMode c = some (.measure .side) ∧ (tracked.members 3).length +
         ((namedSlots (Cell.index c) (Cell.count c)).filter fun i => tracked.slots[i].owner != some 3).length = 9) ∧
    (let s : State := { tracked with slots := (tracked.slots.set 5 .mute).set 6 (.member 2 .full) }
     s.slots[5] = .mute ∧ s.slots[6].owner = some 2) := by decide +kernel

/-- OPEN and SEGMENT_RESET: a profile of 8, a programme of 16, and the last of each, open and UNUSED. -/
theorem witness_OpenAndSegmentResetRequests :
    Cell.profileOperand (cell 7 15 0 0 [8]) 0 = none ∧ Cell.profileOperand (cell 7 15 0 0 [7]) 0 = some 7 ∧
    Cell.programme (cell 7 16 0 0 [7]) = none ∧ Cell.programme (cell 7 15 0 0 [7]) = some 15 ∧
    Cell.programme (cell 0x10 16 0 0 []) = none ∧ Cell.programme (cell 0x10 3 0 0 []) = some 3 ∧
    base.progs[15].state = .unused ∧ base.progs[3].state = .unused ∧ tracked.progs[3].state ≠ .unused := by decide +kernel

/-- CLOSE: programme 16; an UNUSED programme; an open one with a segment start held for it, for another alone, and with none; and a
programme with a DUE entry, a staged list of 0, 1 and 2 entries, and a RETUNE, a RESCALE and a PROBE in flight. -/
theorem witness_CloseTearsTheProgrammeDown :
    Cell.programme (cell 8 16 0 0 []) = none ∧ Cell.programme (cell 8 3 0 0 []) = some 3 ∧ base.progs[3].state = .unused ∧
      tracked.progs[3].state ≠ .unused ∧ ProgSet.mem 8 3 = true ∧ ProgSet.mem 16 3 = false ∧ tracked.heldStarts = none ∧
      ({ tracked with heldStarts := some 8 } : State).heldStarts = some 8 ∧
    (∀ op ∈ [Operation.retune, .rescale, .probe 1 reply], ∀ staged ∈ [[], [⟨64, .hold, none, false, false⟩],
        [⟨64, .hold, none, false, false⟩, ⟨128, .hold, none, false, false⟩]],
      let s : State := { flying tracked op false with
        cues := [cue .hold 640 true], gains := base.gains.set 3 { GainRecord.reset with staged := staged } }
      s.gains[3].staged = staged ∧ (s.cues.any fun e => e.prog == 3 && e.due) = true ∧ s.engine.map (fun f => f.op) = some op) := by
  decide +kernel

/-- The fields of the record that pin reset leaves. -/
def profileExample : List (Option Int) := Cell.profileFields (cell 3 7 0 0 resetRecord)

/-- PROFILE_WRITE: a record of 25 bytes and one cut short; fields of which the first twelve pass and that pass whole, a minimum above the
maximum among the bad ones; profile 8; a profile in use first by programme 3; a first bad field of 13; a record that passes. -/
theorem witness_ProfileWriteStoresALegalRecord :
    (Cell.operand16 (cell 3 7 0 0 (resetRecord.take 20)) 21 = none ∧ Cell.operand (cell 3 7 0 0 resetRecord) 24 = some 20) ∧
    (let fields := profileExample.set 8 (some 1201)
     fields[8]? = some (some 1201) ∧ (∀ k, k < 10 → 1 ≤ k → fieldPasses fields k = true) ∧ fieldPasses fields 10 = false) ∧
    (∀ n, n < 17 → 1 ≤ n → ∃ v, profileExample[n - 1]? = some (some v)) ∧
    8 ≤ Cell.target (cell 3 8 0 0 []) ∧ Cell.target (cell 3 7 0 0 []) = 7 ∧
    (tracked.progs[3].state ≠ .unused ∧ tracked.progs[3].profile = 2 ∧
      ∀ r : Prog, r < 3 → ¬(tracked.progs[r].state ≠ .unused ∧ tracked.progs[r].profile = 2)) ∧
    (∀ p : Prog, ¬(tracked.progs[p].state ≠ .unused ∧ tracked.progs[p].profile = 7)) ∧
    (fieldPasses (Cell.profileFields (cell 3 7 0 0 (resetRecord.take 20))) 13 = false ∧
      ∀ k, k < 13 → 1 ≤ k → fieldPasses (Cell.profileFields (cell 3 7 0 0 (resetRecord.take 20))) k = true) ∧
    (∀ n, n < 17 → 1 ≤ n → fieldPasses (Cell.profileFields (cell 3 7 0 0 resetRecord)) n = true) := by
  refine ⟨by decide +kernel, by decide +kernel, ?_, by decide +kernel⟩
  exact fun n h1 h2 => Option.isSome_iff_exists.mp ((by decide +kernel :
    ∀ n < 17, 1 ≤ n → (profileExample[n - 1]?.join).isSome = true) n h1 h2) |>.imp fun _ h => Option.join_eq_some_iff.mp h

/-- A load of 8 points up to point 31, with the point count that follows. -/
def fullLoad (count : Byte) : Cell := cell 4 3 24 8 ((List.replicate 8 [0, 1, 0, 2]).flatten ++ [count])

/-- LAW_LOAD: table 4; counts 0 and 9; a short payload; points past 31; a bad point; a count of 33; a pending table; a marked
bank; and a load that passes all. -/
theorem witness_LawLoadChecksAndWrites :
    (∃ good : Nat → Prop, ∀ k, good k ↔ ∃ deviation gain : Int,
      (Cell.operand16 (fullLoad 32) (4 * k)).map (·.toInt) = some deviation ∧
      (Cell.operand16 (fullLoad 32) (4 * k + 2)).map (·.toInt) = some gain ∧
      -400 ≤ deviation ∧ deviation ≤ 400 ∧ -4000 ≤ gain ∧ gain ≤ 2000) ∧
    ((0x190 : BitVec 16).toInt = 400 ∧ (0xFE70 : BitVec 16).toInt = -400 ∧ (0x7D0 : BitVec 16).toInt = 2000 ∧
      (0xF060 : BitVec 16).toInt = -4000) ∧
    4 ≤ Cell.target (cell 4 4 0 1 []) ∧ (∀ n ∈ [0, 9], Cell.count (cell 4 3 0 (byteNat n) []) = n) ∧
    Cell.payloadLength (cell 4 3 0 1 [0, 0, 0]) < 4 * Cell.count (cell 4 3 0 1 [0, 0, 0]) ∧
    32 < Cell.index (cell 4 3 32 1 [0, 0, 0, 0]) + Cell.count (cell 4 3 32 1 [0, 0, 0, 0]) ∧
    firstBadPoint (Cell.loadPoints (cell 4 3 31 1 [1, 0x91, 0, 0])) 31 = some 31 ∧
    (Cell.target (fullLoad 32) = 3 ∧ Cell.count (fullLoad 32) = 8 ∧ 4 * Cell.count (fullLoad 32) ≤ Cell.payloadLength (fullLoad 32) ∧
      Cell.index (fullLoad 32) + Cell.count (fullLoad 32) = 32 ∧ firstBadPoint (Cell.loadPoints (fullLoad 32)) 24 = none ∧
      Cell.operand (fullLoad 32) 32 = some 32 ∧ Cell.operand (fullLoad 33) 32 = some 33) ∧
    base.laws[3].pending = false ∧ base.lawMark ≠ some ((3 : TableNo), base.laws[3].active.other) ∧
    ((base.laws.set 3 { LawTable.reset with pending := true })[3]).pending = true ∧
    ({ base with lawMark := some (3, .b) } : State).lawMark = some ((3 : TableNo), base.laws[3].active.other) :=
  ⟨⟨_, fun _ => Iff.rfl⟩, by decide, by decide +kernel⟩

/-- LAW_SWAP: no set; sets 0, 16 and 15, with a pending table, a shadow bank that is not valid, and neither. -/
theorem witness_LawSwapMarksTheNamedTables :
    Cell.operand (cell 5 0 0 0 []) 0 = none ∧
    (∀ n ∈ [0, 15, 16], Cell.operand (cell 5 0 0 0 [n]) 0 = some n) ∧
    (∀ k : TableNo, (15 : Byte).getLsbD k = true ∧ base.laws[k].pending = false ∧ base.laws[k].shadow.valid = true) ∧
    (let v := base.laws.set 3 { LawTable.reset with pending := true, bankB := { LawBank.reset with count := 1 } }
     v[3].pending = true ∧ v[3].shadow.firstBad = some 1 ∧
       ∀ j : TableNo, j < 3 → v[j].pending = false ∧ v[j].shadow.valid = true) := by decide +kernel

theorem witness_BankValidityAndFirstBadPoint :
    (∀ n ∈ [0, 1, 2, 32], ({ LawBank.reset with count := n } : LawBank).count ≤ 32) ∧
    ({ LawBank.reset with count := 32 } : LawBank).firstBad = some 2 := by decide +kernel

theorem witness_LawsAreEvaluatedByInterpolation :
    exampleLaw.count ≤ 32 ∧ exampleLaw.valid = true ∧
    (∃ x g : Nat → Int, (∀ k (_ : k < 32), x k = exampleLaw.points[k].deviation ∧ g k = exampleLaw.points[k].gain) ∧
      -201 ≤ x 0 ∧ x (exampleLaw.count - 1) ≤ 200 ∧ x 1 = -60 ∧ x 1 < -59 ∧ -59 < x 2) :=
  ⟨by decide, by decide, fun k => if h : k < 32 then exampleLaw.points[k].deviation else 0,
    fun k => if h : k < 32 then exampleLaw.points[k].gain else 0,
    fun k h => by simp [h], by decide, by decide, by decide, by decide, by decide⟩

/-- CUE_POST at link time 409 616: programme 16; an operand missing; a lead of 2^27 frames and of more; a lateness of 768 frames
and of more; a DUE entry of the same due block; a full queue. -/
theorem witness_CuePostChecksItsFieldsInOrder :
    Cell.programme (cell 9 16 0 0 []) = none ∧ base.progs[3].state = .unused ∧ posting.progs[3].state ≠ .unused ∧
    Cell.cueOperands (cell 9 3 0 0 [0, 0, 0, 0, 2]) = none ∧
    (Cell.cueOperands (cell 9 3 0 0 [0, 6, 0x40, 0, 2, 0])).isSome ∧ posting.currentTime = 409616 ∧
    currentBoundary 409616 = 409600 ∧
    (after (dueBlock (409600 + 134217664)) 409600 = true ∧ (dueBlock (409600 + 134217664) - 409616).toNat ≤ 134217728) ∧
    (after (dueBlock (409664 + 134217728)) 409600 = true ∧ 134217728 < (dueBlock (409664 + 134217728) - 409616).toNat) ∧
    (after (dueBlock 408832) 409600 = false ∧ (409600 - dueBlock 408832).toNat = 768) ∧
    (after (dueBlock 408768) 409600 = false ∧ 768 < (409600 - dueBlock 408768).toNat) ∧
    (∃ e ∈ [cue .hold 409600 true], e.prog = 3 ∧ e.block = 409600 ∧ e.due = true) ∧
    (let cues := (List.range 32).map fun n => { cue .hold (BitVec.ofNat 32 (64 * n)) false with prog := 4 }
     cues.length = 32 ∧ ∀ e ∈ cues, ¬(e.prog = 3 ∧ e.block = 409600)) := by decide +kernel

/-- A post on time into a queue of 31 others, and one that replaces an entry and is late. -/
theorem witness_CuePostInsertsTheEntry :
    (let c := cell 9 3 0 0 [0, 6, 0x3D, 0xA8, 4, 2, 0, 0, 0]
     (Cell.cueOperands c).map (fun o => (dueBlock o.time, o.kind, o.gain)) = some (409024, .preset, some 0) ∧
       after 409024 (currentBoundary posting.currentTime) = false ∧
       (currentBoundary posting.currentTime - 409024).toNat ≤ 768 ∧ posting.cues.length < 32 ∧
       ([cue .hold 409024 false].any fun e => e.prog == 3 && e.block == 409024) = true) ∧
    (let c := cell 9 3 0 0 [0, 6, 0x40, 0x41, 2, 0]
     (Cell.cueOperands c).map (fun o => dueBlock o.time) = some 409728 ∧ after 409728 409600 = true ∧
       (409728 - 409616 : LinkTime).toNat ≤ 134217728) := by decide +kernel

theorem witness_CueWithdrawRemovesAPendingEntry :
    (hand { tracked with cues := [cue .hold 640 false, cue .hold 704 true] } (cell 10 3 0 0 [0, 0, 2, 0x41])).CuesKept ∧
    Cell.programme (cell 10 16 0 0 []) = none ∧ Cell.operand32 (cell 10 3 0 0 [0, 0, 2, 0x41]) 0 = some 577 ∧
    dueBlock 577 = 640 ∧ dueBlock 641 = 704 ∧ dueBlock 705 = 768 ∧
    (Cell.programme (cell 10 15 0 0 [0, 0, 2]) ≠ none ∧ Cell.operand32 (cell 10 15 0 0 [0, 0, 2]) 0 = none) :=
  ⟨⟨by decide +kernel, by decide +kernel⟩, by decide +kernel, by decide +kernel, by decide +kernel, by decide +kernel, by decide +kernel,
    by decide +kernel⟩

/-- The operands at the bounds of their ranges, and each that is missing or past them. -/
theorem witness_DirectivesAndProbesJoinTheirSources :
    ([(0x07D0 : BitVec 16), 0xF060, 0x07D1, 0xF05F].map BitVec.toInt = [2000, -4000, 2001, -4001]) ∧
    (Cell.operand16 (cell 0x0C 3 0 0 [7]) 0 = none ∧ Cell.operand32 (cell 10 3 0 0 [0, 0, 2]) 0 = none ∧
      Cell.operand (cell 0x0B 3 0 0 []) 0 = none ∧ Cell.expectedProfile (cell 0x0B 3 0 0 [7]) = some (some 7)) ∧
    Cell.programme (cell 0x0B 16 0 0 [0xFF, 7]) = none ∧ Cell.programme (cell 0x0B 15 0 0 [0xFF, 7]) = some 15 ∧
    Cell.expectedProfile (cell 0x0B 15 0 0 [8, 7]) = none ∧ Cell.expectedProfile (cell 0x0B 15 0 0 [0xFF, 7]) = some none ∧
    Cell.profileOperand (cell 0x0B 15 0 0 [0xFF, 8]) 1 = none ∧ Cell.profileOperand (cell 0x0B 15 0 0 [0xFF, 7]) 1 = some 7 ∧
    Cell.gainOperand (cell 0x0C 3 0 0 [0x07, 0xD1, 0]) 0 = none ∧ Cell.operand (cell 0x0C 3 0 0 [0, 0]) 2 = none ∧
    (Cell.gainOperand (cell 0x0C 3 0 0 [0x07, 0xD0, 1]) 0 = some 2000 ∧ Cell.operand (cell 0x0C 3 0 0 [0x07, 0xD0, 1]) 2 = some 1) ∧
    Cell.profileOperand (cell 0x0E 3 0 0 [8]) 0 = none ∧ Cell.profileOperand (cell 0x0E 3 0 0 [7]) 0 = some 7 ∧
    base.arbiter.probe = none ∧ (sources 0 none (some (probeEntry false))).arbiter.probe ≠ none := by decide +kernel

theorem witness_ParticipateSetsTheFlags :
    (Cell.operand (cell 0x11 0 0 0 [3, 0]) 0 = some 3 ∧ Cell.operand (cell 0x11 0 0 0 [0, 3]) 1 = some 3) ∧
    (Cell.operand (cell 0x11 0 0 0 [2, 1]) 0 = some 2 ∧ Cell.operand (cell 0x11 0 0 0 [2, 1]) 1 = some 1) ∧
    Cell.operand (cell 0x11 0 0 0 [2]) 1 = none := by decide +kernel

/-- An operation of each sort in flight and none; a DUE entry behind a PENDING one and before another DUE one; and two states between
which the entry becomes eligible, and the same two with nothing that does. -/
theorem witness_CancelAndEligibility :
    (∀ op ∈ [Operation.retune, .rescale, .probe 1 reply],
      (flying tracked op false).engine.map (fun f => f.op) = some op) ∧ tracked.engine = none ∧
    ({ tracked with cues := [cue .hold 640 false] ++ cue .release 704 true :: [cue .hold 768 true] } : State).CuesKept ∧
    (let old : State := { tracked with cues := [cue .hold 640 false] }
     let new : State := { tracked with cues := [cue .hold 640 true] }
     (new.eligible (cue .hold 640 true) = true ∧ old.eligible (cue .hold 640 true) = false) ∧
       ∀ e, old.eligible e = true → old.eligible e = true) :=
  ⟨by decide +kernel, by decide +kernel, ⟨by decide +kernel, by decide +kernel⟩, by decide +kernel, fun _ h => h⟩

/-- An operation in flight; a queue of a marked directive and one that is not, and of marked ones alone; the PROBE alone, marked and
not, the marked one with a set empty and not; and nothing to grant. -/
theorem witness_GrantTakesDirectivesAndProbes :
    (flying tracked .retune false).engine ≠ none ∧
    (let d : Directive := { op := .release, prog := 3, reply := reply, abort := false }
     let s : State := { tracked with arbiter := { Arbiter.reset with directives := [{ d with abort := true }] ++ d :: [d] } }
     s.engine = none ∧ s.arbiter.directives = [{ d with abort := true }] ++ d :: [d] ∧
       ∀ x ∈ List.replicate 4 { d with abort := true }, x.abort = true) ∧
    (∀ a : Bool, (sources 0 none (some (probeEntry a))).engine = none ∧
      (sources 0 none (some (probeEntry a))).arbiter.directives = [] ∧ (sources 0 none (some (probeEntry a))).cues = [] ∧
      (sources 0 none (some (probeEntry a))).arbiter.probe = some (probeEntry a) ∧
      (sources 0 none (some (probeEntry a))).arbiter.rescale = 0 ∧ (sources 0 none (some (probeEntry a))).arbiter.retune = 0) ∧
    ((sources 8 none (some (probeEntry true))).arbiter.probe = some (probeEntry true) ∧
      (sources 8 none (some (probeEntry true))).arbiter.rescale ≠ 0) ∧
    ((sources 0 none none).engine = none ∧ (sources 0 none none).arbiter.directives = [] ∧ (sources 0 none none).cues = [] ∧
      (sources 0 none none).arbiter.probe = none) := by
  decide +kernel

/-- A PENDING entry, then the DUE one that is eligible, then another DUE one of the same programme. -/
theorem witness_GrantTakesTheFirstEligibleCue :
    let s : State := { tracked with cues := [cue .hold 640 false] ++ cue .switch 704 true :: [cue .hold 768 true] }
    s.engine = none ∧ s.arbiter.directives = [] ∧ s.CuesKept ∧ (∀ x ∈ [cue .hold 640 false], s.eligible x = false) ∧
      s.eligible (cue .switch 704 true) = true :=
  ⟨by decide +kernel, by decide +kernel, ⟨by decide +kernel, by decide +kernel⟩, by decide +kernel, by decide +kernel⟩

/-- A set whose pointer has a member above it, and one whose pointer has none. -/
theorem witness_GrantTakesTheNextInTurn :
    let s := sources 0b1010 (some 1) none
    s.engine = none ∧ s.arbiter.directives = [] ∧ s.cues = [] ∧ s.arbiter.probe = none ∧
      NextInTurn s.arbiter.rescale s.arbiter.rescalePointer 3 ∧ NextInTurn 0b1010 (some 15) 1 ∧ NextInTurn 0b1010 none 1 ∧
      (sources 0 none none).arbiter.rescale = 0 :=
  ⟨by decide +kernel, by decide +kernel, by decide +kernel, by decide +kernel,
    ⟨by decide +kernel, .inl ⟨1, rfl, by decide, by decide⟩⟩,
    ⟨by decide, .inr ⟨fun q r h => by cases h; exact (by decide : ∀ r : Prog, ProgSet.mem 0b1010 r = true → r ≤ 15) r, by decide⟩⟩,
    ⟨by decide, .inr ⟨fun q r h => (by cases h), by decide⟩⟩, by decide +kernel⟩

/-- Every kind of operation in flight, with the discard mark set and clear. -/
theorem witness_DiscardedOperationsMakeNoEffect :
    (∀ op ∈ [Operation.retune, .rescale, .cue (cue .hold 640 true), .directive (.exchange none 4) reply,
        .directive (.force 0 true) reply, .directive .release reply, .probe 1 reply],
      (∃ f, (flying tracked op true).engine = some f ∧ f.discard = true ∧ f.op = op) ∧
      (∃ f, (flying tracked op false).inFlight f ∧ f.op = op ∧ f.prog = 3 ∧ tracked.progs[f.prog].generation = f.snap.generation)) ∧
    (∃ f, (flying (prog3 base .dormant .silent) .retune false).inFlight f ∧
      (base.progs.set 3 { ProgRecord.reset with generation := 1 })[3].generation ≠ f.snap.generation) ∧
    ({ tracked with engine := some (operation .retune false 1) } : State).inFlight (operation .retune false 1) ∧
    (operation .retune false 1).snap.staged ≠ 0 :=
  ⟨fun op _ => ⟨⟨_, rfl, rfl, rfl⟩, ⟨_, ⟨rfl, rfl⟩, rfl, rfl, (by decide +kernel : tracked.progs[3].generation = 0)⟩⟩,
    ⟨_, ⟨rfl, rfl⟩, by decide +kernel⟩, ⟨rfl, rfl⟩, by decide⟩

/-- A RETUNE or RESCALE of the tracked programme whose snapshot has this computation and target. -/
def computing (op : Operation) (k : Computation) (target : Int) : InFlight :=
  { operation op false 0 with snap := { snapshot 0 with computation := some k, target := target } }

/-- A RETUNE and a RESCALE whose law proposes +3.00 dB against a target of 0, past the tolerance of 0.50 dB; without a measured value;
with a difference of the tolerance and of one step more; and under pressure, where the clamped gain raises the target and where it does
not. -/
theorem witness_RetunesAndRescalesSetTheTarget :
    (∀ op ∈ [Operation.retune, .rescale], ∃ f k, (flying tracked op false).inFlight f ∧ f.op = op ∧
      tracked.progs[f.prog].generation = f.snap.generation ∧ f.snap.staged = 0 ∧ f.snap.computation = some k ∧
      f.snap.bank = some (0, .a) ∧ k.blend = some (-270) ∧ k.profile.tolerance < (300 - f.snap.target).natAbs) ∧
    (∀ op ∈ [Operation.retune, .rescale], ∀ blend ∈ [none, some (-270 : Int)], ∀ pressure : Bool,
      ∀ target ∈ [0, 249, 250, 350, (351 : Int)],
        let k : Computation := { profile := Profile.reset, short := none, integrated := none, blend := blend, pressure := pressure }
        let f := computing op k target
        let s : State := { tracked with engine := some f }
        s.inFlight f ∧ f.op = op ∧ s.progs[f.prog].generation = f.snap.generation ∧ f.snap.staged = 0 ∧
          f.snap.computation = some k ∧ f.snap.bank = some (0, .a) ∧ k.profile.basis = .blend ∧ k.profile.tolerance = 50 ∧
          f.snap.target = target) ∧
    ((300 - 250 : Int).natAbs = 50 ∧ (300 - 350 : Int).natAbs = 50 ∧ (300 - 249 : Int).natAbs = 51 ∧
      (300 - 351 : Int).natAbs = 51 ∧ (249 : Int) < 300 ∧ (300 : Int) ≤ 351) ∧
    tracked.progs[3].state ≠ .unused ∧ (tracked.activeProfile 3).gainMin ≤ (tracked.activeProfile 3).gainMax ∧
    tracked.laws[0].bankA.gainAt (-270 - Profile.reset.target) = 300 ∧ clampGain (-2000) 1200 300 = 300 :=
  ⟨fun op _ => ⟨_, _, ⟨rfl, rfl⟩, rfl, (by decide +kernel : tracked.progs[3].generation = 0), rfl, rfl, rfl, rfl,
    (by decide : (50 : Int) < (300 - 0 : Int).natAbs)⟩,
    fun _ _ _ _ _ _ _ => ⟨⟨rfl, rfl⟩, rfl, (by decide +kernel : tracked.progs[3].generation = 0), rfl, rfl, rfl, rfl, rfl, rfl⟩,
    by decide, by decide +kernel, by decide +kernel, by decide +kernel, by decide⟩

/-- Each kind of cue in flight for a programme in each state it can be in. -/
theorem witness_CuesActByKindAndState :
    ∀ k ∈ [CueKind.segment, .switch, .hold, .release, .preset], ∀ st ∈ [ProgState.dormant, .tracking, .held, .overridden],
      ∀ pr : Presence, ∃ f e, (flying (prog3 base st pr) (.cue (cue k 640 true)) false).inFlight f ∧ f.op = .cue e ∧ e.prog = 3 ∧
        e.kind = k ∧ (prog3 base st pr).progs[3].state = st ∧ (prog3 base st pr).progs[3].presence = pr :=
  fun _ _ _ _ _ => ⟨_, _, ⟨rfl, rfl⟩, rfl, rfl, rfl, rfl, rfl⟩

/-- A range, with a gain below, in and above it; a programme that leaves TRACKING and one that stays, with the retune flag on. -/
theorem witness_CuePartsActOnTheProgramme :
    ((-2000 : Int) ≤ 1200 ∧ clampGain (-2000) 1200 (-2001) = -2000 ∧ clampGain (-2000) 1200 7 = 7 ∧
      clampGain (-2000) 1200 1201 = 1200) ∧
    tracked.progs[3].state ≠ .unused ∧ tracked.progs[3].state = .tracking ∧ ProgState.held ≠ .tracking ∧
      (prog3 base .held .present).progs[3].state = .held ∧ tracked.arbiter.retuneOn = true ∧ (cue .hold 640 true).prog = 3 := by
  decide +kernel

/-- An exchange with a profile expected that is active, is not, and of ANY, on a programme open and UNUSED. -/
theorem witness_ProfileExchangeCompletesAgainstTheRecord :
    (∀ x ∈ [none, some 2, some (0 : ProfileNo)], ∃ f, (flying tracked (.directive (.exchange x 4) reply) false).inFlight f ∧
      f.op = .directive (.exchange x 4) reply ∧ f.prog = 3) ∧
    tracked.progs[3].profile = 2 ∧ tracked.progs[3].state ≠ .unused ∧
    (flying base (.directive (.exchange none 4) reply) false).progs[3].state = .unused :=
  ⟨fun _ _ => ⟨_, ⟨rfl, rfl⟩, rfl, rfl⟩, by decide +kernel, by decide +kernel, by decide +kernel⟩

theorem witness_GainForceAndReleaseComplete :
    (∀ d ∈ [DirectiveOp.force 2000 true, .release], ∀ s ∈ [base, tracked, prog3 base .overridden .silent,
        prog3 base .overridden .present], ∃ f, (flying s (.directive d reply) false).inFlight f ∧ f.op = .directive d reply ∧
      f.prog = 3) ∧
    base.progs[3].state = .unused ∧ tracked.progs[3].state = .tracking ∧
    (∀ pr : Presence, (prog3 base .overridden pr).progs[3].state = .overridden ∧
      (prog3 base .overridden pr).progs[3].presence = pr) :=
  ⟨fun _ _ _ _ => ⟨_, ⟨rfl, rfl⟩, rfl, rfl⟩, by decide +kernel, by decide +kernel, fun _ => ⟨rfl, rfl⟩⟩

/-- A PROBE in flight with a measured value under BLEND and none under SHORT, on a programme open and UNUSED. -/
theorem witness_ProbeChangesNoState :
    (∀ s ∈ [base, tracked], ∃ f k, (flying s (.probe 1 reply) false).inFlight f ∧ f.op = .probe 1 reply ∧ f.prog = 3 ∧
      f.snap.computation = some k ∧ f.snap.bank = some (0, .a) ∧ k.profile.basis = .blend ∧ k.blend = some (-270) ∧
      k.short = none) ∧ base.progs[3].state = .unused ∧ tracked.progs[3].state ≠ .unused :=
  ⟨fun _ _ => ⟨_, _, ⟨rfl, rfl⟩, rfl, rfl, rfl, rfl, rfl, rfl, rfl⟩, by decide +kernel, by decide +kernel⟩

/-! ### Witnesses of the link side -/

theorem follows_onLink {s : State} {lock : LockState} {n : Nat} {t : LinkTime} (h : lock = .settling ∨ lock = .running) :
    (onLink s lock n t).followsTheLink := ⟨h, by show 0 < 24 + 16 * 0; decide⟩

/-- SEARCH with and without a possible frame 0; CONFIRM at its seventeenth, second and any other frame, with a second header that
confirms and one that does not. -/
theorem witness_SearchAndConfirmFindTheLink :
    base.rx.lock = .search ∧ base.rx.possible = none ∧
    ({ Receiver.reset with possible := some 0x6B2D0000 } : Receiver).possible = some 0x6B2D0000 ∧
    (0x1230 : ServiceWord).toNat % 16 = 0 ∧ (0x1231 : ServiceWord).toNat % 16 ≠ 0 ∧
    (∀ n ∈ [1, 2, 15, 16], (onLink base .confirm n 32).rx.lock = .confirm ∧ (onLink base .confirm n 32).framesInTime ∧
      (onLink base .confirm n 32).rx.words.length = n) ∧
    (onLink base .confirm 1 32).rx.words = [0x6B2D0000] ∧ (0x6B2D0000 : ServiceWord).extractLsb' 16 16 = 0x6B2D ∧
    (48 : ServiceWord) = (onLink base .confirm 1 32).rx.time + 16 ∧ ¬((64 : ServiceWord) = (onLink base .confirm 1 32).rx.time + 16) :=
  ⟨rfl, rfl, rfl, by decide, by decide, fun n h => ⟨rfl, (by decide : 0 < 24 + 16 * 0), by simp [onLink, receiver]⟩, rfl,
    by decide +kernel, by decide, by decide⟩

/-- A superframe start in SETTLING that enters RUNNING (the sixteenth of settle code 0, on a multiple of 64), one that does not,
and one in RUNNING, on a boundary and off it; and the sixteenth outbound frame at a frame that starts no superframe, with each source
of its cell and a frame 15 whose superframe had a valid header and one that had not. -/
theorem witness_SuperframesTakeTheExpectedTime :
    (∀ lock ∈ [LockState.settling, .running], ∀ t ∈ [32, (48 : LinkTime)], (onLink base lock 16 t).followsTheLink ∧
      (onLink base lock 16 t).rx.words.length = 16 ∧ (onLink base lock 16 t).rx.expected = some (t + 16)) ∧
    (onLink base .settling 16 48).rx.settle = some 15 ∧ (48 + 16 : LinkTime).toNat % 64 = 0 ∧ (32 + 16 : LinkTime).toNat % 64 ≠ 0 ∧
    (∃ trigger report : NoticeState → NoticeState,
      (∀ n, trigger n = match n with | .none | .pending => .pending | .sending | .sendingAgain => .sendingAgain) ∧
      (∀ n, report n = match n with | .none | .sending => .none | .pending | .sendingAgain => .pending)) ∧
    (∀ source : CellSource,
      let s : State := { onLink base .running 15 32 with tx := { (onLink base .running 15 32).tx with source := source } }
      s.followsTheLink ∧ s.rx.words.length = 15 ∧ s.tx.sent = 15 ∧ s.tx.source = source ∧ s.rx.header ≠ .valid) :=
  ⟨fun lock h t _ => ⟨follows_onLink (by simpa using h), by simp [onLink, receiver], rfl⟩, rfl, by decide, by decide,
    ⟨_, _, fun _ => rfl, fun _ => rfl⟩, fun _ => ⟨⟨.inr rfl, (by decide : 0 < 24 + 16 * 0)⟩, rfl, rfl, rfl, fun h => nomatch h⟩⟩

/-- The second frame of a superframe with a header valid and not, a candidate held and not, an error run of 0 and of 1, and a
superframe that is a header error already. -/
theorem witness_HeadersAreCheckedAtFrameOne :
    (∀ lock ∈ [LockState.settling, .running], (onLink tracked lock 1 48).followsTheLink ∧
      (onLink tracked lock 1 48).rx.words = [0x6B2D0000]) ∧
    ((48 : ServiceWord).toNat % 16 = 0 ∧ (80 : ServiceWord).toNat % 16 = 0) ∧ (0x6B2D0000 : ServiceWord).extractLsb' 16 16 = 0x6B2D ∧
    (49 : ServiceWord).toNat % 16 ≠ 0 ∧
    (let r : Receiver := { receiver .running 1 48 with slip := some 64, errorRun := 1 }
     r.slip = some 64 ∧ (80 : ServiceWord) = 64 + 16 ∧ 80 ≠ r.time ∧ 1 ≤ r.errorRun ∧ r.header ≠ .error) ∧
    (∀ n ∈ [14, 15], ∀ source : CellSource,
      let s : State := { onLink tracked .running 1 48 with
        tx := { (onLink tracked .running 1 48).tx with sent := n, source := source } }
      s.followsTheLink ∧ s.rx.words = [0x6B2D0000] ∧ s.tx.sent = n ∧ s.tx.source = source) ∧
    ({ receiver .running 1 48 with header := .error } : Receiver).header = .error ∧ tracked.progs[3].state ≠ .unused :=
  ⟨fun lock h => ⟨follows_onLink (by simpa using h), rfl⟩, by decide +kernel, by decide +kernel, by decide +kernel,
    by decide +kernel, fun _ _ _ => ⟨⟨.inr rfl, (by decide : 0 < 24 + 16 * 0)⟩, rfl, rfl, rfl⟩, rfl, by decide +kernel⟩

/-- Each lock state; an error run of 0, and of 1 in SETTLING with 39 periods passed and in RUNNING; a programme open and UNUSED; and in
each lock state but SEARCH the count of the first and of the second timeout reached. -/
theorem witness_MissingFramesAreHeaderErrors :
    base.rx.lock = .search ∧ (onLink base .confirm 5 32).rx.lock = .confirm ∧ (onLink base .confirm 5 32).framesInTime ∧
    (onLink base .running 5 32).followsTheLink ∧ (onLink base .running 5 32).rx.errorRun = 0 ∧
    (let s : State := { base with rx := { receiver .settling 5 32 with errorRun := 1, timeouts := 1, periods := 39 } }
     s.followsTheLink ∧ 1 ≤ s.rx.errorRun ∧ s.rx.lock = .settling) ∧
    (let s : State := { tracked with rx := { receiver .running 5 32 with errorRun := 1 } }
     s.followsTheLink ∧ 1 ≤ s.rx.errorRun ∧ s.rx.lock = .running) ∧
    (∀ lock ∈ [LockState.confirm, .settling, .running], ∀ n ∈ [0, 1],
      let s : State := { base with rx := { receiver lock 5 32 with timeouts := n, periods := 24 + 16 * n } }
      s.rx.lock = lock ∧ lock ≠ .search ∧ 24 + 16 * s.rx.timeouts ≤ s.rx.periods ∧ s.rx.periods < 40 + 16 * s.rx.timeouts ∧
        ∃ u, exec .missingFrameTimeout s = .next u) ∧
    tracked.progs[3].state ≠ .unused ∧ tracked.progs[4].state = .unused :=
  ⟨rfl, rfl, by unfold State.framesInTime; decide, follows_onLink (by decide), rfl,
    ⟨⟨.inl rfl, by unfold State.framesInTime; decide⟩, by decide, rfl⟩,
    ⟨⟨.inr rfl, by unfold State.framesInTime; decide⟩, by decide, rfl⟩,
    fun lock h n _ => ⟨rfl, (by decide : ∀ lock ∈ [LockState.confirm, .settling, .running], lock ≠ .search) lock h,
      Nat.le_refl _, (by show 24 + 16 * n < 40 + 16 * n; omega), _, rfl⟩, by decide +kernel, by decide +kernel⟩

/-- The last frame of an outbound superframe and the one before, a new superframe with each source of its cell, and CONFIRM with 23
periods passed. -/
theorem witness_ReferencePeriodsSendSilence :
    (∀ n ∈ [14, 15, 16], (onLink base .search n 32).tx.sent = n ∧ (onLink base .search n 32).rx.lock = .search) ∧
    (∃ c x, (onLink base .search 16 32).OffersCell c x ∧ x = .notice) ∧
    (let s : State := { onLink base .search 16 32 with notice := { NoticeUnit.reset with state := .none } }
     ∃ c, s.OffersCell c .idle) ∧
    (let s : State := { onLink base .search 16 32 with
       notice := { NoticeUnit.reset with state := .none }
       cells := { CellHandler.reset with forward := [idleCell.toCell 0x40], responses := [reply.made .done 0 []] } }
     ∃ c, s.OffersCell c .forward) ∧
    (let s : State := { onLink base .search 16 32 with
       notice := { NoticeUnit.reset with state := .none }
       cells := { CellHandler.reset with responses := [reply.made .done 0 []] } }
     ∃ c, s.OffersCell c .response) ∧
    (let s : State := { base with rx := { receiver .confirm 5 32 with periods := 23 } }; s.rx.lock = .confirm ∧ s.framesInTime) ∧
    (onLink base .running 5 32).followsTheLink :=
  ⟨by decide +kernel, ⟨_, _, .inl ⟨by decide, rfl, rfl⟩, rfl⟩, ⟨_, .inr ⟨rfl, .inr ⟨rfl, .inr ⟨rfl, rfl, rfl⟩⟩⟩⟩,
    ⟨_, .inr ⟨rfl, .inl ⟨⟨_, rfl⟩, rfl⟩⟩⟩, ⟨_, .inr ⟨rfl, .inr ⟨rfl, .inl ⟨⟨_, _, rfl, rfl⟩, rfl⟩⟩⟩⟩,
    ⟨rfl, by unfold State.framesInTime; decide⟩, follows_onLink (by decide)⟩

/-- Each frame of an inbound and of an outbound superframe; and a slot of each mode. -/
theorem witness_FramesPassTheDelayLine :
    (∀ lock ∈ [LockState.settling, .running], ∀ n ∈ [1, 2, 15, 16],
      (onLink base lock n 32).followsTheLink ∧ (onLink base lock n 32).rx.words.length = n ∧
      ∀ k ∈ [0, 1, 2, 15, 16],
        ({ onLink base lock n 32 with tx := { (onLink base lock n 32).tx with sent := k } } : State).followsTheLink) ∧
    (let v := ((base.slots.set 0 .mute).set 1 (.measure 3 .full)).set 2 (.member 3 .none)
     v[0] = .mute ∧ v[1] = .measure 3 .full ∧ v[2] = .member 3 .none ∧ v[63] = .pass) :=
  ⟨fun _ h _ _ => ⟨follows_onLink (by simpa using h), by simp [onLink, receiver], fun _ _ => ⟨by simpa [onLink, receiver] using h, (by decide : 0 < 24 + 16 * 0)⟩⟩,
    by decide +kernel⟩

theorem witness_GainedSamplesAreRounded : ∃ y : ℝ, y = |((5 : Sample).toInt : ℝ)| * (10 : ℝ) ^ (((-2000 : Int) : ℝ) / 2000) :=
  ⟨_, rfl⟩

/-- A frame 15 of a superframe whose header was valid, and of one whose header was not; the cell that a made cell becomes on the link,
for a station's cell to this part, to another, to all, and to none, with a check that fails; and queues of 3 and 4, the forward queue
with its head in the cell slot and not. -/
theorem witness_ArrivingCellsAreSorted :
    (∀ header ∈ [HeaderFound.valid, .error],
      ({ onLink base .running 15 32 with rx := { receiver .running 15 32 with header := header } } : State).followsTheLink ∧
      ({ receiver .running 15 32 with header := header } : Receiver).words.length = 15) ∧
    (∀ d ∈ [(0x40 : Byte), 0x41, 0xFF], ∀ k ∈ [(0x01 : Byte), 0x7F, 0x80],
      let c := MadeCell.toCell { destination := d, kind := k, status := 0, tag := 0, target := 0, index := 0, count := 0,
                                 payload := [] } 1
      Cell.checks c = true ∧ Cell.destination c = d ∧ Cell.byte c 2 = k ∧ Cell.destination c ≠ 0) ∧
    Cell.checks (cell 1 0 0 0 []) = false ∧ Cell.destination (idleCell.toCell 1) = 0 ∧ base.address = 0x40 ∧
    (∀ n ∈ [3, 4], (List.replicate n (idleCell.toCell 1)).length = n) ∧
    (onLink base .running 15 32).tx.source = .idle ∧ (onLink base .running 15 32).tx.sent = 15 ∧
    (∃ joined dropped : State → Prop,
      (∀ t, joined t ↔ t.cells.forward = [] ∧ t.cells.dropped = 0 ∧ t.notice.flags = base.notice.flags) ∧
      ∀ t, dropped t ↔ t.cells.forward = [] ∧ t.cells.dropped = 1 ∧ t.notice.flags = base.notice.flags ||| 0x100) ∧
    (List.replicate 16 (0x6B2D0000 : ServiceWord)).length = 16 ∧
    (let s : State := { onLink base .running 15 32 with tx := { (onLink base .running 15 32).tx with source := .forward } }
     s.tx.sent = 15 ∧ s.reportDue = some .forward) :=
  ⟨fun _ _ => ⟨⟨.inr rfl, (by decide : 0 < 24 + 16 * 0)⟩, rfl⟩, by decide +kernel, by decide +kernel, by decide +kernel,
    by decide +kernel, by decide +kernel, rfl, rfl, ⟨_, _, fun _ => Iff.rfl, fun _ => Iff.rfl⟩, rfl, rfl, rfl⟩

/-! ### Witnesses of the measurement and the gains -/

/-- A window with its segment start held and one without, and none; each state of a programme that is not UNUSED; a loudness at the
presence threshold and above it, and none; a presence at its reference and one that is not. -/
theorem witness_WindowsAreCompletedOrDiscarded :
    (∀ st ∈ [ProgState.dormant, .tracking, .held, .overridden], ∀ pr : Presence,
      let s : State := { prog3 base st pr with
        heldStarts := some 0
        meters := base.meters.set 3 { MeterRecord.reset with complete := some (List.replicate 75 ⟨0, 64⟩) } }
      s.heldStarts = some 0 ∧ ProgSet.mem 0 3 = false ∧ s.meters[3].complete = some (List.replicate 75 ⟨0, 64⟩) ∧
        s.progs[3].state = st ∧ s.progs[3].presence = pr ∧ s.progs[3].reference = .silent) ∧
    windowLoudness (List.replicate 75 ⟨0, 64⟩) = none ∧
    let s : State := { prog3 base .dormant .silent with
      heldStarts := some 0b10000
      meters := base.meters.set 3 { MeterRecord.reset with complete := some (List.replicate 75 ⟨2 ^ 47, 5⟩) } }
    s.heldStarts = some 0b10000 ∧ ProgSet.mem 0b10000 4 = true ∧ ProgSet.mem 0b10000 3 = false ∧
      s.meters[3].complete = some (List.replicate 75 ⟨2 ^ 47, 5⟩) ∧ s.progs[3].state ≠ .unused ∧ s.meters[5].complete = none ∧
      (s.activeProfile 3).presenceThreshold ≤ -247 := by
  refine ⟨?_, by decide +kernel, by decide +kernel⟩
  intro st _ pr
  exact ⟨rfl, by decide, rfl, rfl, rfl, rfl⟩

theorem witness_WindowLoudnessIsTheMeanPower :
    (List.replicate 75 (⟨2 ^ 47, 5⟩ : BlockPower)).length = 75 ∧
    (∀ b ∈ List.replicate 75 (⟨2 ^ 47, 5⟩ : BlockPower), 0 < b.frames) ∧
    (∀ b ∈ List.replicate 75 (⟨0, 64⟩ : BlockPower), 0 < b.frames) := by decide +kernel

/-- Programme 3 with the ring and the histogram of the examples and a total of 29 and 30, and programme 4 with nothing measured; and the
hypothesis of the energy mean's last clause, for one value. -/
theorem witness_MeasuredValuesAreEnergyMeans :
    (∀ total ∈ [29, 30],
      let s : State := { base with meters := base.meters.set 3 { MeterRecord.reset with
        ring := [-200, -300, -250], histogram := (Vector.replicate 300 0).set 149 6, total := total } }
      s.meters[3].ring ≠ [] ∧ (∀ l ∈ s.meters[3].ring, -700 ≤ l ∧ l ≤ 200) ∧ s.meters[3].histogram[149] ≠ 0 ∧
        s.meters[3].total = total ∧ s.meters[4].ring = []) ∧
    (∀ k : Fin 300, base.meters[4].histogram[k] = 0) ∧ ((-10 : Int) ≤ -10) ∧
    (∃ (mean : ℝ) (nearest : Int),
      mean = ([((1 : Nat), (0 : Int))].map fun x => (x.1 : ℝ) * (10 : ℝ) ^ ((x.2 : ℝ) / 100)).sum /
        ([((1 : Nat), (0 : Int))].map fun x => (x.1 : ℝ)).sum ∧
      nearest = ⌊100 * Real.logb 10 mean + 1 / 2⌋) :=
  ⟨by decide +kernel, by decide +kernel, by decide, _, _, rfl, rfl⟩

/-- A frame that begins no superframe and one that begins a superframe off a boundary, in SETTLING and RUNNING, with a programme open
and one UNUSED; a frame that is neither frame 0 nor frame 1, with any count of the outbound superframe, and frame 15 of a superframe
whose header was valid and of one whose header was not; and a frame in SEARCH and CONFIRM. -/
theorem witness_FramesAddToTheBlocksAndAreChecked :
    (∀ lock ∈ [LockState.settling, .running], ∀ n ∈ [1, 15, 16], (onLink tracked lock n 32).followsTheLink ∧
      ∃ e, (onLink tracked lock n 32).rx.expected = some e ∧ e.toNat % 64 ≠ 0) ∧
    (∃ hundredths : SlotNo → Nat, ∀ i, hundredths i = match base.slots[i] with
      | .member q w | .measure q w => if q = 3 then (match w with | .full => 100 | .side => 141 | .none => 0) else 0
      | .pass | .mute => 0) ∧
    (∀ lock ∈ [LockState.settling, .running], ∀ n ∈ [2, 14, 15], ∀ k ∈ [0, 14, 15, 16],
      let s : State := { onLink tracked lock n 32 with tx := { (onLink tracked lock n 32).tx with sent := k } }
      s.followsTheLink ∧ s.rx.words.length = n ∧ s.tx.sent = k ∧ ¬(n = 15 ∧ s.rx.header = .valid)) ∧
    (let s : State := { onLink tracked .running 15 32 with rx := { receiver .running 15 32 with header := .valid } }
     s.followsTheLink ∧ s.rx.words.length = 15 ∧ s.rx.header = .valid) ∧
    tracked.progs[3].state ≠ .unused ∧ tracked.progs[4].state = .unused ∧ base.rx.lock = .search ∧
    (onLink base .confirm 5 32).rx.lock = .confirm :=
  ⟨fun _ h _ _ => ⟨follows_onLink (by simpa using h), 48, rfl, by decide⟩, ⟨_, fun _ => rfl⟩,
    fun _ h _ _ _ _ => ⟨⟨by simpa [onLink, receiver] using h, (by decide : 0 < 24 + 16 * 0)⟩, by simp [onLink, receiver], rfl, fun h => nomatch h.2⟩,
    ⟨⟨.inr rfl, (by decide : 0 < 24 + 16 * 0)⟩, rfl, rfl⟩, by decide +kernel, by decide +kernel, rfl, rfl⟩

/-- A superframe of programme 3 whose next is a boundary at link time 64, with a window of `n` closed blocks. -/
def boundaryNext (n : Nat) : State :=
  { onLink tracked .running 16 48 with
    meters := base.meters.set 3 { MeterRecord.reset with window := some (List.replicate n ⟨1, 64⟩) }
    cues := [cue .segment 64 false] }

/-- A superframe of SETTLING with programme 3 open whose next is a boundary at link time 64, the sixteenth of settle code 0 where the
settle count is 15, with law table 2 pending, a RETUNE in flight and programme 3 marked. -/
def settlingNext (settle : Nat) : State :=
  { flying (onLink tracked .settling 16 48) .retune false with
    rx := { receiver .settling 16 48 with settle := some settle }
    laws := base.laws.set 2 { LawTable.reset with pending := true }
    meters := base.meters.set 3 { MeterRecord.reset with resetMark := true } }

theorem follows_settlingNext (n : Nat) : (settlingNext n).followsTheLink := ⟨.inl rfl, (by decide : 0 < 24 + 16 * 0)⟩

/-- A boundary with a window of 73 and of 74 closed blocks and of none, and a SEGMENT cue that becomes DUE; and the boundary that enters
RUNNING. -/
theorem witness_ABoundaryOfRunningWorksCuesMeterAndGains :
    (∀ n ∈ [73, 74], (boundaryNext n).followsTheLink ∧ (boundaryNext n).rx.words.length = 16 ∧
      (boundaryNext n).rx.expected = some 64 ∧
      (boundaryNext n).settleBeforeBoundary.meters[3].window = some (List.replicate n ⟨1, 64⟩) ∧
      (boundaryNext n).settleBeforeBoundary.progs[3].state ≠ .unused) ∧
    (64 : LinkTime).toNat % 64 = 0 ∧
    (onLink tracked .running 16 48).settleBeforeBoundary.meters[3].window = none ∧
    (boundaryNext 74).settleBeforeBoundary.cues = [cue .segment 64 false] ∧
    atOrBefore (cue .segment 64 false).block 64 = true ∧
    ((settlingNext 15).followsTheLink ∧ (settlingNext 15).rx.words.length = 16 ∧ (settlingNext 15).rx.expected = some 64 ∧
      ∃ n, (settlingNext 15).rx.settle = some n ∧ 16 * 4 ^ (settlingNext 15).straps.settle.toNat ≤ min 1024 (n + 1)) :=
  ⟨fun n h => ⟨⟨.inr rfl, (by decide : 0 < 24 + 16 * 0)⟩, by simp [boundaryNext, onLink, receiver], rfl,
    (by decide +kernel : ∀ n ∈ [73, 74], (boundaryNext n).settleBeforeBoundary.meters[3].window = some (List.replicate n ⟨1, 64⟩)) n h,
    (by decide +kernel : ∀ n ∈ [73, 74], (boundaryNext n).settleBeforeBoundary.progs[3].state ≠ .unused) n h⟩,
    by decide, by decide +kernel, by decide +kernel, by decide, follows_settlingNext 15, rfl, rfl, 15, rfl, by decide⟩

/-- The tracked programme with its segment start held and an operation in flight that has seen `n` boundaries. -/
def dueNext (op : Operation) (n : Nat) : State :=
  { tracked with heldStarts := some 0b1000, engine := some { operation op false 0 with boundaries := n } }

/-- What has to happen before a boundary, with each kind of operation in flight, its count of boundaries 0 and 1, and with none. A
boundary that stays in SETTLING and one that enters RUNNING, with a pending table, a RETUNE in flight and a segment-reset mark;
and one in RUNNING with a cue that becomes DUE and eligible, late and not. -/
theorem witness_EveryBoundarySwapsCountsAndClaims :
    (∀ op ∈ [Operation.retune, .rescale, .cue (cue .hold 640 true), .directive (.exchange none 4) reply,
        .directive (.force 0 false) reply, .directive .release reply, .probe 1 reply], ∀ n ∈ [0, 1],
      ∃ v g, exec .windowCompletion (dueNext op n) = .next v ∧ v.engine = some g ∧ g.op = op ∧ g.boundaries = n) ∧
    (∃ v, exec .windowCompletion { tracked with heldStarts := some 0b1000 } = .next v ∧ v.engine = none) ∧
    (∀ n ∈ [14, 15], (settlingNext n).followsTheLink ∧ (settlingNext n).rx.words.length = 16 ∧
      (settlingNext n).rx.expected = some 64) ∧
    (settlingNext 14).settleBeforeBoundary.laws[2].pending = true ∧ (settlingNext 14).settleBeforeBoundary.laws[1].pending = false ∧
    (settlingNext 14).settleBeforeBoundary.meters[3].resetMark = true ∧
    (settlingNext 14).settleBeforeBoundary.meters[4].resetMark = false ∧
    (settlingNext 14).settleBeforeBoundary.engine.map (fun f => f.op) = some .retune ∧
    (ran (.inboundFrame ⟨silence, 0⟩) (settlingNext 14)).rx.lock = .settling ∧
    ((boundaryNext 74).followsTheLink ∧ (boundaryNext 74).rx.expected = some 64) ∧
    ((ran (.inboundFrame ⟨silence, 0⟩) (boundaryNext 74)).eligible (cue .segment 64 true) = true ∧
      (boundaryNext 74).settleBeforeBoundary.eligible (cue .segment 64 true) = false) ∧
    (before 0 64 = true ∧ atOrBefore 0 64 = true ∧ before 64 64 = false) :=
  ⟨fun op _ n _ => ⟨_, { operation op false 0 with boundaries := n }, rfl, by simp [dueNext], rfl, rfl⟩,
    ⟨_, rfl, by simp [tracked, prog3, base, State.reset, State.afterReset]⟩,
    fun n _ => ⟨follows_settlingNext n, rfl, rfl⟩, by decide +kernel, by decide +kernel, by decide +kernel, by decide +kernel,
    by decide +kernel, by decide +kernel, ⟨⟨.inr rfl, (by decide : 0 < 24 + 16 * 0)⟩, rfl⟩, by decide +kernel, by decide⟩

theorem witness_BoundariesMoveTheGains :
    (∀ e ∈ GainRecord.reset.staged, atOrBefore e.boundary 64 = false) ∧
    (∃ extra : Nat → Nat, ∀ n, extra n = if n % 4 = 1 ∧ (64 : LinkTime).toNat / 64 % 4 = 3 ∨
      n % 4 = 2 ∧ ((64 : LinkTime).toNat / 64 % 4 = 1 ∨ (64 : LinkTime).toNat / 64 % 4 = 3) ∨
      n % 4 = 3 ∧ (64 : LinkTime).toNat / 64 % 4 ≠ 0 then 1 else 0) ∧
    (∀ k ∈ [CueKind.hold, .preset], ∀ g ∈ [none, some (2001 : Int)], ∀ b : Bool,
      let r : GainRecord := { GainRecord.reset with staged := [⟨64, k, g, b, false⟩, ⟨128, .preset, none, false, false⟩] }
      r.staged = ⟨64, k, g, b, false⟩ :: [⟨128, .preset, none, false, false⟩] ∧ r.snap = false) ∧
    atOrBefore 64 64 = true ∧ atOrBefore 128 64 = false ∧
    (∀ first ∈ [CueKind.hold, .preset], ∀ second ∈ [CueKind.hold, .preset], ∀ g ∈ [none, some (2001 : Int)], ∀ b : Bool,
      let r : GainRecord := { GainRecord.reset with staged := [⟨0, first, g, b, false⟩, ⟨64, second, g, b, false⟩] }
      r.staged = ⟨0, first, g, b, false⟩ :: ⟨64, second, g, b, false⟩ :: [] ∧ atOrBefore 0 64 = true) :=
  ⟨by decide, ⟨_, fun _ => rfl⟩, by decide, by decide, by decide, by decide⟩

theorem witness_TheGuardMeetsTheNeed :
    (∃ weighed : Samples → SlotNo → Prop, ∀ f i, weighed f i ↔ f ∈ [silence] ∧ ∃ w, base.slots[i] = .member 3 w) ∧
    (8388608 : Nat) ≤ 8388608 ∧ (-4000 : Int) ≤ 2000 ∧
    (let g := { GainRecord.reset with guardLength := 74, guardCount := 20 }.boundaryWork Profile.reset 64 false 0
     g.guardLength = 0 ∧ g.pressure = true) ∧
    (let g := { GainRecord.reset with guardLength := 73, guardCount := 20 }.boundaryWork Profile.reset 64 false 0
     g.guardLength = 74 ∧ g.pressure = false) :=
  ⟨⟨_, fun _ _ => Iff.rfl⟩, by decide +kernel⟩

/-! ### A witness of the invariants: a tracking programme with a slot, in RUNNING, and a command waiting -/

/-- The witness of the invariants. -/
def kept : State :=
  { onLink tracked .running 5 64 with slots := base.slots.set 0 (.member 3 .full), pending := [.grant] }

theorem profiles_kept : ∀ q : ProfileNo, kept.profiles[q] = Profile.reset := by decide +kernel

theorem resetProfile_legal : Profile.reset.Legal := by constructor <;> decide

theorem kept_gains : kept.GainsKept :=
  ⟨fun q => profiles_kept q ▸ resetProfile_legal, by decide +kernel, by decide +kernel, by decide +kernel, by decide +kernel,
    by decide +kernel⟩

theorem kept_slots : kept.SlotsKept := ⟨by decide +kernel, by decide +kernel⟩

theorem witness_NoMemberSampleExceedsItsCeiling :
    kept.GainsKept ∧ kept.SlotsKept ∧ ∃ t, exec (.inboundFrame ⟨silence, 0⟩) kept = .next t ∧ t.rx.lock = .running ∧
      t.slots[0] = .member 3 .full :=
  ⟨kept_gains, kept_slots, _, rfl, by decide +kernel, by decide +kernel⟩

theorem witness_StepsKeepTheLimits : kept.WithinLimits ∧ kept.StagedKept ∧ ∃ t, step kept = .next t :=
  ⟨⟨by decide +kernel, by decide +kernel, by decide +kernel, by decide +kernel, fun c h => by cases h⟩,
    ⟨by decide +kernel, fun f e h => by cases h⟩, _, rfl⟩

theorem witness_StepsKeepWhatNamesAProgramme : kept.SlotsKept ∧ kept.NamesOpen ∧ kept.CuesKept ∧ ∃ t, step kept = .next t :=
  ⟨kept_slots, ⟨by decide +kernel, by decide +kernel, by decide +kernel, by decide +kernel, by decide +kernel⟩,
    ⟨by decide +kernel, by decide +kernel⟩, _, rfl⟩

theorem witness_StepsKeepTheGainsInRange : kept.GainsKept ∧ ∃ t, step kept = .next t := ⟨kept_gains, _, rfl⟩

theorem laws_kept : ∀ t : TableNo, kept.laws[t] = LawTable.reset := by decide +kernel

theorem resetBank_inRange : LawBank.reset.InRange := ⟨by decide, by decide +kernel⟩

theorem witness_StepsKeepTheLawsAndTheMark : kept.LawsKept ∧ kept.MarkKept ∧ kept.PresenceKept ∧ ∃ t, step kept = .next t :=
  ⟨⟨fun t => by rw [laws_kept]; exact ⟨resetBank_inRange, resetBank_inRange⟩, by decide +kernel, by decide +kernel⟩,
    ⟨rfl, fun f h => by cases h⟩, ⟨by decide +kernel, by decide +kernel, by decide +kernel⟩, _, rfl⟩

theorem meters_kept (p : Prog) : kept.meters[p] = MeterRecord.reset := by
  show (Vector.replicate 16 MeterRecord.reset)[p] = _
  simp

theorem witness_StepsKeepTheMeterAndTheLink : kept.MeterKept ∧ kept.LinkKept ∧ ∃ t, step kept = .next t :=
  ⟨⟨fun p => (by rw [meters_kept]; decide), fun p k => (by rw [meters_kept]; simp [MeterRecord.reset]),
      fun p => (by rw [meters_kept]; decide), fun p b h => (by rw [meters_kept] at h; cases h),
      fun p b h => (by rw [meters_kept] at h; cases h)⟩,
    ⟨by decide +kernel, fun h => (by cases h), by decide +kernel, fun _ => ⟨by decide, ⟨80, rfl, by decide⟩, by decide⟩,
      by decide, by decide⟩, _, rfl⟩

end Sys2Proof.Tests
end

/-! ## Slots and programmes: SLOT_MAP (R29, R30) and PRESENCE_READ (R43) -/

section
namespace Sys2Proof.Machine

/-! ### PRESENCE_READ (R43) -/

/-- PRESENCE_READ with its request in hand is its handler. -/
theorem exec_presenceRead_of_holds {s : State} {c : Cell} (h : s.holds 0x0F c) :
    exec .presenceRead s = .next (readPresence c s) :=
  congrArg Host.Outcome.next (onRequest_of_holds h readPresence)

/-- No programme differs where every reference presence is the presence. -/
theorem differing_eq_zero {s : State} (h : ∀ p : Prog, s.progs[p].presence = s.progs[p].reference) : s.differing = 0 :=
  (congrArg progSetOf (funext fun p => bne_eq_false_iff_eq.mpr (h p))).trans progSetOf_false

/-- The copy of R43 covers all sixteen programmes. -/
theorem readPresence_differing (c : Cell) (s : State) : (readPresence c s).differing = 0 :=
  differing_eq_zero fun p => by simp [readPresence]

/-- An UNUSED programme is SILENT, so it is not in the set of the PRESENT ones. -/
theorem unused_not_mem_presentSet {s : State} (hs : s.PresenceKept) {p : Prog} (hp : s.progs[p].state = .unused) :
    ProgSet.mem s.presentSet p = false := by
  have hsilent : s.progs[p].presence = .silent := hs.unused p hp
  rw [State.presentSet, ProgSet.mem_progSetOf, hsilent]
  rfl

/-- Settles O17: the response is formed from the sets as they stand, and the copy then leaves no difference. -/
theorem presenceReadMovesTheReference : Obligations.PresenceReadMovesTheReference := by
  intro s c h
  exact ⟨readPresence c s, exec_presenceRead_of_holds h, rfl, readPresence_differing c s,
    fun hs _ hp => unused_not_mem_presentSet hs hp⟩

/-! ### The mode and class operands of SLOT_MAP (section 8.12) -/

/-- The codes of the weight classes, read back. -/
theorem weightOf_eq_some_iff {b : Byte} {w : WeightClass} : weightOf b = some w ↔ b = w.code := by
  constructor
  · intro h
    unfold weightOf at h
    split_ifs at h with h0 h1 h2 <;> cases h <;> assumption
  · rintro rfl
    cases w <;> rfl

/-- The class operand of a SLOT_MAP, none where it is missing or no class code. -/
def Cell.mapClass (c : Cell) : Option WeightClass := (Cell.operand c 1).bind weightOf

theorem mapClass_eq_some_iff {c : Cell} {w : WeightClass} : Cell.mapClass c = some w ↔ Cell.operand c 1 = some w.code := by
  simp [Cell.mapClass, Option.bind_eq_some_iff, weightOf_eq_some_iff]

theorem mapMode_of_no_operand {c : Cell} (h : Cell.operand c 0 = none) : Cell.mapMode c = none := by
  simp [Cell.mapMode, h]

theorem mapMode_pass {c : Cell} (h : Cell.operand c 0 = some 0) : Cell.mapMode c = some .pass := by
  simp [Cell.mapMode, h]

theorem mapMode_member {c : Cell} (h : Cell.operand c 0 = some 1) : Cell.mapMode c = (Cell.mapClass c).map .member := by
  simp [Cell.mapMode, h, Cell.mapClass]

theorem mapMode_measure {c : Cell} (h : Cell.operand c 0 = some 2) :
    Cell.mapMode c = ((Cell.mapClass c).filter (· != WeightClass.none)).map .measure := by
  simp [Cell.mapMode, h, Cell.mapClass]

theorem mapMode_mute {c : Cell} (h : Cell.operand c 0 = some 3) : Cell.mapMode c = some .mute := by
  simp [Cell.mapMode, h]

theorem mapMode_of_code_above {c : Cell} {b : Byte} (h : Cell.operand c 0 = some b) (hb : 3 < b.toNat) :
    Cell.mapMode c = none := by
  have hne : ∀ k : Byte, k.toNat ≤ 3 → b ≠ k := fun k hk e => by subst e; omega
  rw [Cell.mapMode, h]
  simp only [hne 0 (by decide), hne 1 (by decide), hne 2 (by decide), hne 3 (by decide), if_false]

theorem mapMode_member_of_class {c : Cell} {w : WeightClass} (h : Cell.operand c 0 = some 1)
    (hw : Cell.operand c 1 = some w.code) : Cell.mapMode c = some (.member w) := by
  rw [mapMode_member h, mapClass_eq_some_iff.mpr hw, Option.map_some]

theorem mapMode_measure_of_class {c : Cell} {w : WeightClass} (h : Cell.operand c 0 = some 2) (hne : w ≠ .none)
    (hw : Cell.operand c 1 = some w.code) : Cell.mapMode c = some (.measure w) := by
  rw [mapMode_measure h, mapClass_eq_some_iff.mpr hw, Option.filter_some_pos (by simpa using hne), Option.map_some]

/-- A MEMBER slot takes every class. -/
theorem mapMode_member_eq_none {c : Cell} (h : Cell.operand c 0 = some 1)
    (hc : ∀ w : WeightClass, Cell.operand c 1 ≠ some w.code) : Cell.mapMode c = none := by
  have hnone : Cell.mapClass c = none := Option.eq_none_iff_forall_ne_some.mpr fun w e => hc w (mapClass_eq_some_iff.mp e)
  simp [mapMode_member h, hnone]

/-- A MEASURE slot takes every class but NONE. -/
theorem mapMode_measure_eq_none {c : Cell} (h : Cell.operand c 0 = some 2)
    (hc : ∀ w : WeightClass, w ≠ .none → Cell.operand c 1 ≠ some w.code) : Cell.mapMode c = none := by
  have hnone : (Cell.mapClass c).filter (· != WeightClass.none) = none := by
    refine Option.filter_eq_none_iff.mpr fun w e => ?_
    have hw : w = .none := by_contra fun hw => hc w hw (mapClass_eq_some_iff.mp e)
    simp [hw]
  simp [mapMode_measure h, hnone]

/-! ### The named slots and the map they are given -/

theorem mem_namedSlots {first count : Nat} {i : SlotNo} :
    i ∈ namedSlots first count ↔ first ≤ (i : Nat) ∧ (i : Nat) < first + count := by
  simp [namedSlots, allSlots]

/-- A named slot stands against a request: it belongs to another programme, or it is in MUTE while the mode gives slots (rows 4
and 5 of R29). -/
abbrev State.NamedSlotTaken (s : State) (first count : Nat) (m : MapMode) (p : Prog) : Prop :=
  ∃ i : SlotNo, first ≤ (i : Nat) ∧ (i : Nat) < first + count ∧
    ((∃ q, s.slots[i].owner = some q ∧ q ≠ p) ∨ (m.gives = true ∧ s.slots[i] = .mute))

/-- The number of members a programme has once every named slot belongs to it (row 6 of R29). -/
def State.membersAfter (s : State) (first count : Nat) (p : Prog) : Nat :=
  (s.members p).length + ((namedSlots first count).filter fun i => s.slots[i].owner != some p).length

/-- The checks of rows 4 and 5 of R29, as the model makes them, find a named slot that is taken. -/
theorem namedSlotTaken_iff {s : State} {first count : Nat} {m : MapMode} {p : Prog} :
    s.NamedSlotTaken first count m p ↔
      (namedSlots first count).any (fun i => s.slots[i].owner.isSome && s.slots[i].owner != some p) = true ∨
      (m.gives && (namedSlots first count).any fun i => s.slots[i] == SlotEntry.mute) = true := by
  have howner : ∀ o : Option Prog, (∃ q, o = some q ∧ q ≠ p) ↔ (o.isSome && o != some p) = true := by
    intro o
    cases o <;> simp
  simp only [State.NamedSlotTaken, howner, List.any_eq_true, mem_namedSlots, Bool.and_eq_true (m.gives), beq_iff_eq]
  constructor
  · rintro ⟨i, hlow, hhigh, hother | ⟨hgives, hmute⟩⟩
    · exact .inl ⟨i, ⟨hlow, hhigh⟩, hother⟩
    · exact .inr ⟨hgives, i, ⟨hlow, hhigh⟩, hmute⟩
  · rintro (⟨i, ⟨hlow, hhigh⟩, hother⟩ | ⟨hgives, i, ⟨hlow, hhigh⟩, hmute⟩)
    · exact ⟨i, hlow, hhigh, .inl hother⟩
    · exact ⟨i, hlow, hhigh, .inr ⟨hgives, hmute⟩⟩

theorem mapSlots_getElem (s : State) (first count : Nat) (m : MapMode) (p : Prog) (i : SlotNo) :
    (s.mapSlots first count m p)[i] = if first ≤ (i : Nat) ∧ (i : Nat) < first + count then m.entry p else s.slots[i] := by
  simp [State.mapSlots]

theorem mapAffects_iff {s : State} {new : Vector SlotEntry 64} {p : Prog} :
    s.mapAffects new p = true ↔
      ∃ i : SlotNo, new[i] ≠ s.slots[i] ∧ (new[i].owner = some p ∨ s.slots[i].owner = some p) := by
  simp [State.mapAffects, allSlots]

/-- The state under an accepted SLOT_MAP, before its answer (R30). -/
def State.mapped (s : State) (first count : Nat) (m : MapMode) (p : Prog) : State :=
  { s with
    slots := s.mapSlots first count m p
    progs := if s.mapAffects (s.mapSlots first count m p) p then
        s.progs.set p { s.progs[p] with generation := s.progs[p].generation + 1 }
      else s.progs }

/-! ### The six checks of SLOT_MAP (R29) -/

/-- SLOT_MAP with its request in hand is its handler. -/
theorem exec_slotMap_of_holds {s : State} {c : Cell} (h : s.holds 0x06 c) : exec .slotMap s = .next (mapRequest c s) :=
  congrArg Host.Outcome.next (onRequest_of_holds h mapRequest)

/-- Row 1 of R29: the count, the mode and the class. -/
theorem mapRequest_badValue {s : State} {c : Cell} (h : Cell.count c < 1 ∨ 16 < Cell.count c ∨ Cell.mapMode c = none) :
    mapRequest c s = s.answer c .badValue [] := by
  unfold mapRequest
  by_cases hcount : Cell.count c < 1 ∨ 16 < Cell.count c
  · exact if_pos hcount
  · have hmode : Cell.mapMode c = none := by tauto
    rw [if_neg hcount, hmode]

section Checks

variable {s : State} {c : Cell} {m : MapMode} {p : Prog}

/-- Row 2 of R29: the named slots and the target. -/
theorem mapRequest_badIndex (hlow : 1 ≤ Cell.count c) (hhigh : Cell.count c ≤ 16) (hmode : Cell.mapMode c = some m)
    (h : 63 < Cell.index c ∨ 64 < Cell.index c + Cell.count c ∨ Cell.programme c = none) :
    mapRequest c s = s.answer c .badIndex [] := by
  have hcount : ¬(Cell.count c < 1 ∨ 16 < Cell.count c) := by omega
  rw [mapRequest, if_neg hcount, hmode]
  cases hprog : Cell.programme c with
  | none => rfl
  | some p =>
    have hrange : 63 < Cell.index c ∨ 64 < Cell.index c + Cell.count c := by simpa [hprog] using h
    exact if_pos hrange

/-- A request that passes rows 1 and 2 of R29: what row 3 asks of the programme, rows 4 to 6 of the named slots, and what an
accepted request does. -/
theorem mapRequest_of_named (hlow : 1 ≤ Cell.count c) (hhigh : Cell.count c ≤ 16) (hmode : Cell.mapMode c = some m)
    (hrange : Cell.index c + Cell.count c ≤ 64) (hprog : Cell.programme c = some p) :
    mapRequest c s =
      if m.gives = true ∧ s.progs[p].state = .unused then s.answer c .badState []
      else if s.NamedSlotTaken (Cell.index c) (Cell.count c) m p ∨
          (m.gives = true ∧ 8 < s.membersAfter (Cell.index c) (Cell.count c) p) then s.answer c .noRoom []
      else (s.mapped (Cell.index c) (Cell.count c) m p).answer c .done [] := by
  have hcount : ¬(Cell.count c < 1 ∨ 16 < Cell.count c) := by omega
  have hinside : ¬(63 < Cell.index c ∨ 64 < Cell.index c + Cell.count c) := by omega
  have hclosed : (m.gives && !s.opened p) = true ↔ m.gives = true ∧ s.progs[p].state = .unused := by
    simp [State.opened]
  have htaken := namedSlotTaken_iff (s := s) (first := Cell.index c) (count := Cell.count c) (m := m) (p := p)
  rw [mapRequest, if_neg hcount, hmode, hprog]
  dsimp only
  rw [if_neg hinside]
  simp only [hclosed]
  split
  · rfl
  · split
    · next hother => rw [if_pos (.inl (htaken.mpr (.inl hother)))]
    · next hother =>
      split
      · next hmute => rw [if_pos (.inl (htaken.mpr (.inr hmute)))]
      · next hmute =>
        have hfree : ¬s.NamedSlotTaken (Cell.index c) (Cell.count c) m p := fun h => (htaken.mp h).elim hother hmute
        simp only [hfree, false_or]
        rfl

/-- Row 3 of R29: a mode that gives slots needs a programme that is not UNUSED. -/
theorem mapRequest_badState (hlow : 1 ≤ Cell.count c) (hhigh : Cell.count c ≤ 16) (hmode : Cell.mapMode c = some m)
    (hrange : Cell.index c + Cell.count c ≤ 64) (hprog : Cell.programme c = some p)
    (hgives : m.gives = true) (hunused : s.progs[p].state = .unused) : mapRequest c s = s.answer c .badState [] := by
  rw [mapRequest_of_named hlow hhigh hmode hrange hprog, if_pos ⟨hgives, hunused⟩]

/-- Rows 4 to 6 of R29: a named slot that is taken, or more than 8 members. -/
theorem mapRequest_noRoom (hlow : 1 ≤ Cell.count c) (hhigh : Cell.count c ≤ 16) (hmode : Cell.mapMode c = some m)
    (hrange : Cell.index c + Cell.count c ≤ 64) (hprog : Cell.programme c = some p)
    (hopen : m.gives = true → s.progs[p].state ≠ .unused)
    (h : s.NamedSlotTaken (Cell.index c) (Cell.count c) m p ∨
      (m.gives = true ∧ 8 < s.membersAfter (Cell.index c) (Cell.count c) p)) :
    mapRequest c s = s.answer c .noRoom [] := by
  rw [mapRequest_of_named hlow hhigh hmode hrange hprog, if_neg fun ⟨hgives, hunused⟩ => hopen hgives hunused, if_pos h]

/-- R30: a request that passes all six checks is carried out and answered DONE. -/
theorem mapRequest_accepted (hlow : 1 ≤ Cell.count c) (hhigh : Cell.count c ≤ 16) (hmode : Cell.mapMode c = some m)
    (hrange : Cell.index c + Cell.count c ≤ 64) (hprog : Cell.programme c = some p)
    (hopen : m.gives = true → s.progs[p].state ≠ .unused)
    (hfree : ¬s.NamedSlotTaken (Cell.index c) (Cell.count c) m p)
    (hfits : m.gives = true → s.membersAfter (Cell.index c) (Cell.count c) p ≤ 8) :
    mapRequest c s = (s.mapped (Cell.index c) (Cell.count c) m p).answer c .done [] := by
  rw [mapRequest_of_named hlow hhigh hmode hrange hprog, if_neg fun ⟨hgives, hunused⟩ => hopen hgives hunused,
    if_neg fun h => h.elim hfree fun ⟨hgives, hfull⟩ => Nat.not_lt.mpr (hfits hgives) hfull]

end Checks

/-- Settles O14: the operand codes, the modes that give slots, the refusals check by check, and the accepted request. -/
theorem slotMapChecksAndMaps : Obligations.SlotMapChecksAndMaps := by
  refine ⟨fun c => ⟨mapMode_of_no_operand, fun b hb => ⟨?_, ?_, mapMode_of_code_above hb, ?_, ?_⟩⟩,
    ⟨rfl, rfl, fun w => ⟨rfl, rfl⟩⟩, fun s c h => ⟨fun hbad => ?_, fun m hlow hhigh hmode => ⟨fun hbad => ?_, ?_⟩⟩, ?_⟩
  · rintro rfl
    exact mapMode_pass hb
  · rintro rfl
    exact mapMode_mute hb
  · rintro rfl
    exact ⟨fun w hw => mapMode_member_of_class hb hw, mapMode_member_eq_none hb⟩
  · rintro rfl
    exact ⟨fun w hne hw => mapMode_measure_of_class hb hne hw, mapMode_measure_eq_none hb⟩
  · rw [exec_slotMap_of_holds h, mapRequest_badValue hbad]
  · rw [exec_slotMap_of_holds h, mapRequest_badIndex hlow hhigh hmode hbad]
  · intro p _ hrange hprog
    rw [exec_slotMap_of_holds h]
    refine ⟨fun hgives hunused => ?_, fun hopen => ⟨fun htaken => ?_, fun hgives hfull => ?_⟩⟩
    · rw [mapRequest_badState hlow hhigh hmode hrange hprog hgives hunused]
    · rw [mapRequest_noRoom hlow hhigh hmode hrange hprog hopen (.inl htaken)]
    · rw [mapRequest_noRoom hlow hhigh hmode hrange hprog hopen (.inr ⟨hgives, hfull⟩)]
  · intro s c m p h hlow hhigh hmode hrange hprog hopen hclear hfits
    have hfree : ¬s.NamedSlotTaken (Cell.index c) (Cell.count c) m p := by
      rintro ⟨i, hfirst, hlast, ⟨q, howner, hne⟩ | ⟨hgives, hmute⟩⟩
      · exact hne ((hclear i hfirst hlast).1 q howner)
      · exact (hclear i hfirst hlast).2 hgives hmute
    refine ⟨s.mapSlots (Cell.index c) (Cell.count c) m p, fun i => by cases m <;> exact mapSlots_getElem .., ?_⟩
    rw [exec_slotMap_of_holds h, mapRequest_accepted hlow hhigh hmode hrange hprog hopen hfree hfits]
    simp only [State.mapped, mapAffects_iff]

end Sys2Proof.Machine
end

/-! ## Profiles and law tables: valid banks (R76) and the law between their points (R77) -/

section
namespace Sys2Proof.Machine

/-! ### Valid banks (R76) -/

/-- Point `k` of a bank is not the first and does not rise from the point before it. -/
def LawBank.badAt (b : LawBank) (k : Nat) : Bool :=
  decide (1 ≤ k) && decide ((b.points.toList.getD k default).deviation ≤ (b.points.toList.getD (k - 1) default).deviation)

section Banks

variable {b : LawBank} {k : Nat}

theorem LawBank.badAt_iff (hk : k < 32) :
    b.badAt k = true ↔ 1 ≤ k ∧ b.points[k].deviation ≤ b.points[k - 1].deviation := by
  have hk' : k - 1 < 32 := by omega
  simp [LawBank.badAt, List.getD_eq_getElem?_getD, hk, hk']

theorem LawBank.not_badAt_iff (hk : k < 32) :
    (!b.badAt k) = true ↔ (1 ≤ k → b.points[k - 1].deviation < b.points[k].deviation) := by
  rw [Bool.not_eq_true', Bool.eq_false_iff, Ne, LawBank.badAt_iff hk, not_and, not_le]

theorem LawBank.firstBad_of_count_lt (h : b.count < 2) : b.firstBad = some b.count := if_pos h

theorem LawBank.firstBad_of_le_count (h : 2 ≤ b.count) : b.firstBad = (List.range b.count).find? b.badAt :=
  if_neg (Nat.not_lt.mpr h)

/-- The first bad point of a bank of 2 points or more is the lowest that does not rise. -/
theorem LawBank.firstBad_eq_some_iff (hlow : 2 ≤ b.count) (hhigh : b.count ≤ 32) {j : Nat} :
    b.firstBad = some j ↔ 1 ≤ j ∧ j < b.count ∧
      (∀ _ : j < 32, b.points[j].deviation ≤ b.points[j - 1].deviation) ∧
      ∀ k (_ : 1 ≤ k) (_ : k < j) (_ : k < 32), b.points[k - 1].deviation < b.points[k].deviation := by
  rw [LawBank.firstBad_of_le_count hlow, List.find?_range_eq_some, List.mem_range]
  constructor
  · rintro ⟨hbad, hj, hbefore⟩
    obtain ⟨hpos, hle⟩ := (LawBank.badAt_iff (by omega)).mp hbad
    exact ⟨hpos, hj, fun _ => hle, fun k hk hkj hk32 => (LawBank.not_badAt_iff hk32).mp (hbefore k hkj) hk⟩
  · rintro ⟨hpos, hj, hle, hbefore⟩
    have hj32 : j < 32 := by omega
    exact ⟨(LawBank.badAt_iff hj32).mpr ⟨hpos, hle hj32⟩, hj, fun k hkj =>
      (LawBank.not_badAt_iff (hkj.trans hj32)).mpr fun hk => hbefore k hk hkj (hkj.trans hj32)⟩

/-- R76: a bank is valid where it has 2 points or more and their deviations rise. -/
theorem LawBank.valid_iff (hhigh : b.count ≤ 32) :
    b.valid = true ↔ 2 ≤ b.count ∧ ∀ k (_ : 1 ≤ k) (_ : k < b.count) (_ : k < 32),
      b.points[k - 1].deviation < b.points[k].deviation := by
  rw [LawBank.valid, Option.isNone_iff_eq_none]
  rcases Nat.lt_or_ge b.count 2 with hfew | hlow
  · simp only [LawBank.firstBad_of_count_lt hfew, reduceCtorEq, Nat.not_le.mpr hfew, false_and]
  · rw [LawBank.firstBad_of_le_count hlow, List.find?_range_eq_none]
    exact ⟨fun h => ⟨hlow, fun k hk hcount hk32 => (LawBank.not_badAt_iff hk32).mp (h k hcount) hk⟩,
      fun ⟨_, hrise⟩ k hcount => (LawBank.not_badAt_iff (by omega)).mpr fun hk => hrise k hk hcount (by omega)⟩

end Banks

/-- Settles O21: validity, a count below 2, and the lowest point that does not rise. -/
theorem bankValidityAndFirstBadPoint : Obligations.BankValidityAndFirstBadPoint := fun _ hhigh =>
  ⟨LawBank.valid_iff hhigh, LawBank.firstBad_of_count_lt, fun _ hlow => LawBank.firstBad_eq_some_iff hlow hhigh⟩

/-! ### Rounded quotients -/

section Rounding

variable {n d : Int}

/-- The quotient rounded to the nearest whole number, halves toward the higher value. -/
theorem roundedQuotient_eq_floor (hd : 0 < d) : roundedQuotient n d = ⌊(n : ℚ) / d + 1 / 2⌋ := by
  have hd' : (d : ℚ) ≠ 0 := by exact_mod_cast hd.ne'
  have hquot : (n : ℚ) / d + 1 / 2 = ((2 * n + d : Int) : ℚ) / ((2 * d : Int) : ℚ) := by
    push_cast
    field_simp
  rw [hquot, Int.floor_div_cast_of_nonneg (by omega), Int.floor_intCast, roundedQuotient]

theorem le_roundedQuotient {a : Int} (hd : 0 < d) (h : a * d ≤ n) : a ≤ roundedQuotient n d :=
  Int.le_ediv_of_mul_le (by omega) (by linarith)

theorem roundedQuotient_le {a : Int} (hd : 0 < d) (h : n ≤ a * d) : roundedQuotient n d ≤ a :=
  Int.lt_add_one_iff.mp (Int.ediv_lt_of_lt_mul (by omega) (by linarith))

end Rounding

/-! ### The law over a list of rising points (R77) -/

section Law

variable {d : Int} {p q : LawPoint} {l rest : List LawPoint}

theorem lawGainOver_cons_of_le (h : d ≤ p.deviation) : lawGainOver (p :: rest) d = p.gain := by
  cases rest with
  | nil => rfl
  | cons q rest => exact if_pos h

theorem lawGainOver_cons_cons_of_between (hp : p.deviation < d) (hq : d < q.deviation) :
    lawGainOver (p :: q :: rest) d =
      p.gain + roundedQuotient ((q.gain - p.gain) * (d - p.deviation)) (q.deviation - p.deviation) := by
  rw [lawGainOver, if_neg (by omega), if_pos hq]

theorem lawGainOver_cons_cons_of_ge (hpq : p.deviation < q.deviation) (hq : q.deviation ≤ d) :
    lawGainOver (p :: q :: rest) d = lawGainOver (q :: rest) d := by
  rw [lawGainOver, if_neg (by omega), if_neg (by omega)]

/-- The points of a list rise from each to the next. -/
abbrev Rising (l : List LawPoint) : Prop := l.IsChain fun p q => p.deviation < q.deviation

/-- The points before the last one at or below a deviation play no part in its gain. -/
theorem lawGainOver_drop (hl : Rising l) {k : Nat} (hk : k < l.length) (hd : l[k].deviation ≤ d) :
    lawGainOver l d = lawGainOver (l.drop k) d := by
  induction k with
  | zero => rw [List.drop_zero]
  | succ k ih =>
    have hrise : l[k].deviation < l[k + 1].deviation := List.isChain_iff_getElem.mp hl k hk
    rw [ih (by omega) (by omega), List.drop_eq_getElem_cons (by omega), List.drop_eq_getElem_cons hk,
      lawGainOver_cons_cons_of_ge hrise hd]

theorem lawGainOver_of_le_first (hk : 0 < l.length) (hd : d ≤ l[0].deviation) : lawGainOver l d = l[0].gain := by
  obtain ⟨p, rest, rfl⟩ := List.exists_cons_of_length_pos hk
  exact lawGainOver_cons_of_le hd

theorem lawGainOver_at_point (hl : Rising l) {k : Nat} (hk : k < l.length) (hd : d = l[k].deviation) :
    lawGainOver l d = l[k].gain := by
  rw [lawGainOver_drop hl hk hd.ge, List.drop_eq_getElem_cons hk, lawGainOver_cons_of_le hd.le]

theorem lawGainOver_of_last_le (hl : Rising l) {k : Nat} (hk : k + 1 = l.length) (hd : l[k].deviation ≤ d) :
    lawGainOver l d = l[k].gain := by
  rw [lawGainOver_drop hl (by omega) hd, List.drop_eq_getElem_cons (by omega), hk, List.drop_length, lawGainOver]

theorem lawGainOver_between (hl : Rising l) {k : Nat} (hk : k + 1 < l.length) (hlow : l[k].deviation < d)
    (hhigh : d < l[k + 1].deviation) :
    lawGainOver l d = l[k].gain + roundedQuotient ((l[k + 1].gain - l[k].gain) * (d - l[k].deviation))
      (l[k + 1].deviation - l[k].deviation) := by
  rw [lawGainOver_drop hl (by omega) hlow.le, List.drop_eq_getElem_cons (by omega), List.drop_eq_getElem_cons hk,
    lawGainOver_cons_cons_of_between hlow hhigh]

end Law

/-- The interpolated gain of R77 lies between the gains of its two points. -/
theorem interpolation_mem_range {g g' t w : Int} (ht : 0 < t) (htw : t < w) :
    min g g' ≤ g + roundedQuotient ((g' - g) * t) w ∧ g + roundedQuotient ((g' - g) * t) w ≤ max g g' := by
  have hw : 0 < w := ht.trans htw
  rcases le_total g g' with hle | hle
  · have hlow : 0 ≤ roundedQuotient ((g' - g) * t) w := le_roundedQuotient hw (by nlinarith)
    have hhigh : roundedQuotient ((g' - g) * t) w ≤ g' - g := roundedQuotient_le hw (by nlinarith)
    omega
  · have hlow : g' - g ≤ roundedQuotient ((g' - g) * t) w := le_roundedQuotient hw (by nlinarith)
    have hhigh : roundedQuotient ((g' - g) * t) w ≤ 0 := roundedQuotient_le hw (by nlinarith)
    omega

/-! ### The law of a bank -/

theorem LawBank.length_used {b : LawBank} (hhigh : b.count ≤ 32) : b.used.length = b.count := by
  simp [LawBank.used, hhigh]

theorem LawBank.used_getElem (b : LawBank) {k : Nat} (hk : k < b.used.length) (hk32 : k < 32) : b.used[k] = b.points[k] := by
  simp [LawBank.used]

theorem LawBank.rising_used {b : LawBank} (hhigh : b.count ≤ 32) (hvalid : b.valid = true) : Rising b.used := by
  obtain ⟨_, hrise⟩ := (LawBank.valid_iff hhigh).mp hvalid
  refine List.isChain_iff_getElem.mpr fun k hk => ?_
  have hlen := LawBank.length_used hhigh
  rw [b.used_getElem _ (by omega), b.used_getElem _ (by omega)]
  exact hrise (k + 1) (by omega) (by omega) (by omega)

/-- Settles O22: the ends, the points and the straight lines of the law over the used points. -/
theorem lawsAreEvaluatedByInterpolation : Obligations.LawsAreEvaluatedByInterpolation := by
  intro b d hhigh hvalid x g hpoints
  have hlen := LawBank.length_used hhigh
  have hrising := LawBank.rising_used hhigh hvalid
  have hlow : 2 ≤ b.count := ((LawBank.valid_iff hhigh).mp hvalid).1
  have hused : ∀ k (hk : k < b.used.length), b.used[k].deviation = x k ∧ b.used[k].gain = g k := fun k hk => by
    obtain ⟨hx, hg⟩ := hpoints k (by omega)
    rw [b.used_getElem hk (by omega), hx, hg]
    exact ⟨rfl, rfl⟩
  unfold LawBank.gainAt
  refine ⟨fun hd => ?_, fun hd => ?_, fun k hk hd => ?_, fun k hk hxk hxk' => ?_⟩
  · rw [← (hused 0 (by omega)).1] at hd
    rw [lawGainOver_of_le_first (by omega) hd, (hused 0 (by omega)).2]
  · rw [← (hused (b.count - 1) (by omega)).1] at hd
    rw [lawGainOver_of_last_le hrising (by omega) hd, (hused _ _).2]
  · rw [← (hused k (by omega)).1] at hd
    rw [lawGainOver_at_point hrising (by omega) hd, (hused _ _).2]
  · have hk' : k + 1 < b.used.length := by omega
    have hline := lawGainOver_between hrising hk' (d := d)
    simp only [hused] at hline
    rw [hline hxk hxk']
    refine ⟨?_, interpolation_mem_range (by omega) (by omega)⟩
    rw [roundedQuotient_eq_floor (by omega), add_assoc, Int.floor_intCast_add]
    push_cast
    rfl

end Sys2Proof.Machine
end

/-! ## Profiles and law tables: PROFILE_WRITE (R67, R70 to R72) -/

section
namespace Sys2Proof.Machine

/-! ### The fields of a record and their checks (R67, R71) -/

/-- The range of field `n` (R67). -/
def fieldRange (n : Nat) : Int × Int := fieldRanges.getD (n - 1) (0, 0)

theorem fieldRanges_getElem? {n : Nat} (hn : n ≤ 16) : fieldRanges[n - 1]? = some (fieldRange n) := by
  have hlen : n - 1 < fieldRanges.length := by
    change n - 1 < 16
    omega
  rw [fieldRange, List.getD_eq_getElem _ _ hlen, List.getElem?_eq_getElem hlen]

section Fields

variable {fields : List (Option Int)} {n : Nat}

theorem fieldValue_of_getElem? {v : Int} (h : fields[n - 1]? = some (some v)) : fieldValue fields n = v := by
  simp [fieldValue, List.getD_eq_getElem?_getD, h]

/-- A field passes where it is present, in its range and in its relations with the gains before it. -/
theorem fieldPasses_iff : fieldPasses fields n = true ↔ ∃ v, fields[n - 1]? = some (some v) ∧
    (fieldRange n).1 ≤ v ∧ v ≤ (fieldRange n).2 ∧ (n = 10 → fieldValue fields 9 ≤ v) ∧
    (n = 11 → fieldValue fields 9 ≤ v ∧ v ≤ fieldValue fields 10) := by
  have himp : ∀ (p q : Prop) [Decidable p], ¬p ∨ q ↔ (p → q) := fun _ _ _ => Decidable.imp_iff_not_or.symm
  unfold fieldPasses
  rw [List.getD_eq_getElem?_getD (l := fields)]
  rcases h : fields[n - 1]? with _ | _ | v
  · simp
  · simp
  · simp only [Option.getD_some, Bool.and_eq_true, Bool.or_eq_true, decide_eq_true_eq, bne_iff_ne, ne_eq, himp, and_assoc,
      Option.some.injEq, exists_eq_left']
    rfl

theorem fieldPasses_present (h : fieldPasses fields n = true) : fields[n - 1]? = some (some (fieldValue fields n)) := by
  obtain ⟨v, hv, _⟩ := fieldPasses_iff.mp h
  rw [fieldValue_of_getElem? hv, hv]

theorem fieldPasses_range (h : fieldPasses fields n = true) :
    (fieldRange n).1 ≤ fieldValue fields n ∧ fieldValue fields n ≤ (fieldRange n).2 := by
  obtain ⟨v, hv, hlow, hhigh, _⟩ := fieldPasses_iff.mp h
  rw [fieldValue_of_getElem? hv]
  exact ⟨hlow, hhigh⟩

/-- R71: the initial gain lies between the minimum and the maximum gain. -/
theorem fieldPasses_initialGain (h : fieldPasses fields 11 = true) :
    fieldValue fields 9 ≤ fieldValue fields 11 ∧ fieldValue fields 11 ≤ fieldValue fields 10 := by
  obtain ⟨v, hv, _, _, _, hbetween⟩ := fieldPasses_iff.mp h
  rw [fieldValue_of_getElem? hv]
  exact hbetween rfl

/-- Where the fields before it pass, a field's relations are with the gains those fields carry. -/
theorem fieldPasses_iff_of_before (hn : n ≤ 16) (hbefore : ∀ k, 1 ≤ k → k < n → fieldPasses fields k = true) :
    fieldPasses fields n = true ↔ ∃ v low high : Int, fields[n - 1]? = some (some v) ∧
      fieldRanges[n - 1]? = some (low, high) ∧ low ≤ v ∧ v ≤ high ∧
      (∀ w, (n = 10 ∨ n = 11) → fields[8]? = some (some w) → w ≤ v) ∧
      (∀ w, n = 11 → fields[9]? = some (some w) → v ≤ w) := by
  have hgain : ∀ k, 1 ≤ k → k < n → ∀ w, fields[k - 1]? = some (some w) ↔ w = fieldValue fields k := by
    intro k hk hkn w
    rw [fieldPasses_present (hbefore k hk hkn), Option.some_inj, Option.some_inj, eq_comm]
  rw [fieldPasses_iff]
  constructor
  · rintro ⟨v, hv, hlow, hhigh, h10, h11⟩
    refine ⟨v, _, _, hv, fieldRanges_getElem? hn, hlow, hhigh, fun w hw he => ?_, fun w hw he => ?_⟩
    · rw [(hgain 9 (by omega) (by omega) w).mp he]
      exact hw.elim h10 fun hw => (h11 hw).1
    · rw [(hgain 10 (by omega) (by omega) w).mp he]
      exact (h11 hw).2
  · rintro ⟨v, low, high, hv, hrange, hlow, hhigh, hmin, hmax⟩
    obtain ⟨rfl, rfl⟩ : (fieldRange n).1 = low ∧ (fieldRange n).2 = high := by
      rw [fieldRanges_getElem? hn, Option.some_inj] at hrange
      simp [hrange]
    refine ⟨v, hv, hlow, hhigh, fun hw => ?_, fun hw => ⟨?_, ?_⟩⟩
    · exact hmin _ (.inl hw) ((hgain 9 (by omega) (by omega) _).mpr rfl)
    · exact hmin _ (.inr hw) ((hgain 9 (by omega) (by omega) _).mpr rfl)
    · exact hmax _ hw ((hgain 10 (by omega) (by omega) _).mpr rfl)

/-! ### The first bad field (R71) -/

theorem firstBadField_eq_none (h : ∀ n, 1 ≤ n → n ≤ 16 → fieldPasses fields n = true) : firstBadField fields = none := by
  rw [firstBadField, List.find?_eq_none]
  simp only [List.mem_map, List.mem_range]
  rintro _ ⟨k, hk, rfl⟩
  simp [h (k + 1) (by omega) (by omega)]

theorem firstBadField_eq_some (hlow : 1 ≤ n) (hhigh : n ≤ 16) (hbad : fieldPasses fields n = false)
    (hbefore : ∀ k, 1 ≤ k → k < n → fieldPasses fields k = true) : firstBadField fields = some n := by
  obtain ⟨m, rfl⟩ : ∃ m, n = m + 1 := ⟨n - 1, by omega⟩
  have hfind : (List.range 16).find? ((fun n => !fieldPasses fields n) ∘ (· + 1)) = some m := by
    rw [List.find?_range_eq_some]
    refine ⟨by simp [hbad], List.mem_range.mpr (by omega), fun k hk => ?_⟩
    simp [hbefore (k + 1) (by omega) (by omega)]
  rw [firstBadField, List.find?_map, hfind, Option.map_some]

/-! ### The record of fields that all pass -/

section Record

variable (hall : ∀ n, 1 ≤ n → n ≤ 16 → fieldPasses fields n = true)

include hall

theorem profileRecord_silenceWindows : ((profileRecord fields).silenceWindows : Int) = fieldValue fields 6 :=
  Int.toNat_of_nonneg (le_trans (by decide) (fieldPasses_range (hall 6 (by omega) (by omega))).1)

theorem profileRecord_raiseSlew : ((profileRecord fields).raiseSlew : Int) = fieldValue fields 12 :=
  Int.toNat_of_nonneg (le_trans (by decide) (fieldPasses_range (hall 12 (by omega) (by omega))).1)

theorem profileRecord_lowerSlew : ((profileRecord fields).lowerSlew : Int) = fieldValue fields 13 :=
  Int.toNat_of_nonneg (le_trans (by decide) (fieldPasses_range (hall 13 (by omega) (by omega))).1)

theorem profileRecord_guardRelease : ((profileRecord fields).guardRelease : Int) = fieldValue fields 15 :=
  Int.toNat_of_nonneg (le_trans (by decide) (fieldPasses_range (hall 15 (by omega) (by omega))).1)

theorem profileRecord_pressureThreshold : ((profileRecord fields).pressureThreshold : Int) = fieldValue fields 16 :=
  Int.toNat_of_nonneg (le_trans (by decide) (fieldPasses_range (hall 16 (by omega) (by omega))).1)

theorem profileRecord_lawTable : (((profileRecord fields).lawTable : Nat) : Int) = fieldValue fields 8 := by
  have hlow : 0 ≤ fieldValue fields 8 := (fieldPasses_range (hall 8 (by omega) (by omega))).1
  have hhigh : fieldValue fields 8 ≤ 3 := (fieldPasses_range (hall 8 (by omega) (by omega))).2
  have htable : (fieldValue fields 8).toNat < 4 := by omega
  simp [profileRecord, tableOf, htable, hlow]

/-- A record of fields that all pass is legal. -/
theorem profileRecord_legal : (profileRecord fields).Legal := by
  have hrange : ∀ n, 1 ≤ n → n ≤ 16 →
      (fieldRange n).1 ≤ fieldValue fields n ∧ fieldValue fields n ≤ (fieldRange n).2 :=
    fun n hlow hhigh => fieldPasses_range (hall n hlow hhigh)
  have hwindows : (1 : Int) ≤ fieldValue fields 6 ∧ fieldValue fields 6 ≤ 255 := hrange 6 (by omega) (by omega)
  have hraise : (0 : Int) ≤ fieldValue fields 12 ∧ fieldValue fields 12 ≤ 255 := hrange 12 (by omega) (by omega)
  have hlower : (0 : Int) ≤ fieldValue fields 13 ∧ fieldValue fields 13 ≤ 255 := hrange 13 (by omega) (by omega)
  have hrelease : (1 : Int) ≤ fieldValue fields 15 ∧ fieldValue fields 15 ≤ 50 := hrange 15 (by omega) (by omega)
  have hpressure : (1 : Int) ≤ fieldValue fields 16 ∧ fieldValue fields 16 ≤ 75 := hrange 16 (by omega) (by omega)
  rw [← profileRecord_silenceWindows hall] at hwindows
  rw [← profileRecord_raiseSlew hall] at hraise
  rw [← profileRecord_lowerSlew hall] at hlower
  rw [← profileRecord_guardRelease hall] at hrelease
  rw [← profileRecord_pressureThreshold hall] at hpressure
  exact
    { target := hrange 1 (by omega) (by omega)
      absoluteGate := hrange 3 (by omega) (by omega)
      relativeOffset := hrange 4 (by omega) (by omega)
      presenceThreshold := hrange 5 (by omega) (by omega)
      silenceWindows := by omega
      tolerance := hrange 7 (by omega) (by omega)
      gainMin := (hrange 9 (by omega) (by omega)).1
      gainMax := (hrange 10 (by omega) (by omega)).2
      initialGain := fieldPasses_initialGain (hall 11 (by omega) (by omega))
      slews := by omega
      ceiling := hrange 14 (by omega) (by omega)
      guardRelease := by omega
      pressureThreshold := by omega }

end Record

end Fields

/-! ### The three checks of PROFILE_WRITE (R70) -/

/-- PROFILE_WRITE with its request in hand is its handler. -/
theorem exec_profileWrite_of_holds {s : State} {c : Cell} (h : s.holds 0x03 c) :
    exec .profileWrite s = .next (writeProfile c s) :=
  congrArg Host.Outcome.next (onRequest_of_holds h writeProfile)

theorem profileOf_target_eq_none {c : Cell} (h : 8 ≤ Cell.target c) : profileOf (Cell.byte c 5) = none :=
  dif_neg (Nat.not_lt.mpr h)

theorem profileOf_target_eq_some {c : Cell} {q : ProfileNo} (h : Cell.target c = q) : profileOf (Cell.byte c 5) = some q := by
  have hlt : (Cell.byte c 5).toNat < 8 := h.trans_lt q.isLt
  exact (dif_pos hlt).trans (congrArg some (Fin.ext h))

/-- A programme that is not UNUSED holds a profile as its active one (R32). -/
abbrev State.UsesProfile (s : State) (q : ProfileNo) (p : Prog) : Prop := s.progs[p].state ≠ .unused ∧ s.progs[p].profile = q

theorem usesProfile_iff {s : State} {q : ProfileNo} {p : Prog} :
    (s.opened p && s.progs[p].profile == q) = true ↔ s.UsesProfile q p := by
  rw [Bool.and_eq_true, opened_iff, beq_iff_eq]

section Checks

variable {s : State} {c : Cell} {q : ProfileNo}

theorem find_usesProfile_eq_none (h : ∀ p, ¬s.UsesProfile q p) :
    (allProgs.find? fun p => s.opened p && s.progs[p].profile == q) = none :=
  List.find?_eq_none.mpr fun p _ => mt usesProfile_iff.mp (h p)

/-- The search for a programme that holds a profile finds the lowest. -/
theorem find_usesProfile_eq_some {p : Prog} (hp : s.UsesProfile q p) (hlower : ∀ r < p, ¬s.UsesProfile q r) :
    (allProgs.find? fun p => s.opened p && s.progs[p].profile == q) = some p :=
  (List.find?_ofFn_eq_some_of_injective Function.injective_id).mpr
    ⟨usesProfile_iff.mpr hp, fun r hr => mt usesProfile_iff.mp (hlower r hr)⟩

/-- Row 1 of R70: the profile number. -/
theorem writeProfile_badIndex (h : 8 ≤ Cell.target c) : writeProfile c s = s.answer c .badIndex [] := by
  rw [writeProfile, profileOf_target_eq_none h]

/-- Row 2 of R70: a profile in use, with the lowest programme that holds it. -/
theorem writeProfile_badState (hq : Cell.target c = q) {p : Prog} (hp : s.UsesProfile q p)
    (hlower : ∀ r < p, ¬s.UsesProfile q r) : writeProfile c s = s.answer c .badState [byteNat p] := by
  rw [writeProfile, profileOf_target_eq_some hq]
  dsimp only
  rw [find_usesProfile_eq_some hp hlower]

/-- Row 3 of R70: the first bad field, by its number. -/
theorem writeProfile_badValue (hq : Cell.target c = q) (hfree : ∀ p, ¬s.UsesProfile q p) {n : Nat}
    (hbad : firstBadField (Cell.profileFields c) = some n) : writeProfile c s = s.answer c .badValue [byteNat n] := by
  rw [writeProfile, profileOf_target_eq_some hq]
  dsimp only
  rw [find_usesProfile_eq_none hfree, hbad]

/-- R72: a request that passes all three checks replaces the record. -/
theorem writeProfile_accepted (hq : Cell.target c = q) (hfree : ∀ p, ¬s.UsesProfile q p)
    (hgood : firstBadField (Cell.profileFields c) = none) : writeProfile c s =
      (s.setProfiles (s.profiles.set q (profileRecord (Cell.profileFields c)))).answer c .done [] := by
  rw [writeProfile, profileOf_target_eq_some hq]
  dsimp only
  rw [find_usesProfile_eq_none hfree, hgood]

end Checks

/-- Settles O18: the payload's fields, the checks of a field, the record, and the request check by check. -/
theorem profileWriteStoresALegalRecord : Obligations.ProfileWriteStoresALegalRecord := by
  refine ⟨fun c signed byte hsigned hbyte => ?_, fun fields n _ hn hbefore => fieldPasses_iff_of_before hn hbefore,
    fun fields v q hv hall hq => ?_, fun s c h => ?_⟩
  · obtain rfl : signed = Cell.operandInt c := funext hsigned
    obtain rfl : byte = Cell.operandByte c := funext hbyte
    rfl
  · have hvalue : ∀ n, 1 ≤ n → n ≤ 16 → v n = fieldValue fields n := fun n hlow hhigh =>
      (fieldValue_of_getElem? (hv n hlow hhigh)).symm
    subst hq
    simp only [hvalue, Nat.one_le_ofNat, Nat.reduceLeDiff, le_refl]
    exact ⟨rfl, rfl, rfl, rfl, rfl, profileRecord_silenceWindows hall, rfl, profileRecord_lawTable hall, rfl, rfl, rfl,
      profileRecord_raiseSlew hall, profileRecord_lowerSlew hall, rfl, profileRecord_guardRelease hall,
      profileRecord_pressureThreshold hall⟩
  · rw [exec_profileWrite_of_holds h]
    refine ⟨fun hbad => by rw [writeProfile_badIndex hbad], fun q hq => ⟨fun p hopen hprofile hlower => ?_, fun hfree =>
      ⟨fun n hlow hhigh hbad hbefore => ?_, fun hall => ⟨profileRecord_legal hall, ?_⟩⟩⟩⟩
    · rw [writeProfile_badState hq ⟨hopen, hprofile⟩ hlower]
      rfl
    · rw [writeProfile_badValue hq hfree (firstBadField_eq_some hlow hhigh hbad hbefore)]
      rfl
    · rw [writeProfile_accepted hq hfree (firstBadField_eq_none hall)]
      rfl

end Sys2Proof.Machine
end

/-! ## Profiles and law tables: LAW_LOAD (R75, R79, R80) -/

section
namespace Sys2Proof.Machine

/-! ### The points of a load (R79) -/

/-- Point `k` of a load, none where the payload does not complete it. -/
def Cell.loadPoint (c : Cell) (k : Nat) : Option LawPoint :=
  (Cell.operandInt c (4 * k)).bind fun d => (Cell.operandInt c (4 * k + 2)).map fun g => ⟨d, g⟩

theorem loadPoints_eq_map (c : Cell) : Cell.loadPoints c = (List.range (Cell.count c)).map (Cell.loadPoint c) := by
  refine List.map_congr_left fun k _ => ?_
  unfold Cell.loadPoint
  cases Cell.operandInt c (4 * k) with
  | none => rfl
  | some d => cases Cell.operandInt c (4 * k + 2) <;> rfl

theorem loadPoint_eq_some_iff {c : Cell} {k : Nat} {p : LawPoint} : Cell.loadPoint c k = some p ↔
    Cell.operandInt c (4 * k) = some p.deviation ∧ Cell.operandInt c (4 * k + 2) = some p.gain := by
  simp only [Cell.loadPoint, Option.bind_eq_some_iff, Option.map_eq_some_iff]
  constructor
  · rintro ⟨d, hd, g, hg, rfl⟩
    exact ⟨hd, hg⟩
  · rintro ⟨hd, hg⟩
    exact ⟨_, hd, _, hg, rfl⟩

theorem LawPoint.inRange_iff {p : LawPoint} : p.inRange = true ↔
    -400 ≤ p.deviation ∧ p.deviation ≤ 400 ∧ -4000 ≤ p.gain ∧ p.gain ≤ 2000 := by
  simp [LawPoint.inRange, gainInRange, and_assoc]

/-- The payload completes point `k` of a load, and the point is in range. -/
abbrev Cell.GoodPoint (c : Cell) (k : Nat) : Prop := (Cell.loadPoint c k).any LawPoint.inRange = true

theorem goodPoint_iff {c : Cell} {k : Nat} : Cell.GoodPoint c k ↔ ∃ deviation gain : Int,
    Cell.operandInt c (4 * k) = some deviation ∧ Cell.operandInt c (4 * k + 2) = some gain ∧
      -400 ≤ deviation ∧ deviation ≤ 400 ∧ -4000 ≤ gain ∧ gain ≤ 2000 := by
  rw [Cell.GoodPoint, Option.any_eq_true]
  constructor
  · rintro ⟨p, hp, hrange⟩
    obtain ⟨hd, hg⟩ := loadPoint_eq_some_iff.mp hp
    exact ⟨_, _, hd, hg, LawPoint.inRange_iff.mp hrange⟩
  · rintro ⟨d, g, hd, hg, hrange⟩
    exact ⟨⟨d, g⟩, loadPoint_eq_some_iff.mpr ⟨hd, hg⟩, LawPoint.inRange_iff.mpr hrange⟩

/-- A good point is one the payload carries. -/
theorem Cell.GoodPoint.carried {c : Cell} {k : Nat} (h : Cell.GoodPoint c k) : ∃ p, Cell.loadPoint c k = some p :=
  Option.isSome_iff_exists.mp (Option.isSome_of_any h)

/-! ### The first bad point of a load -/

/-- The first bad point is the first of the list that is missing or out of range, counted from the index of the first point. -/
theorem firstBadPoint_eq_findIdx (points : List (Option LawPoint)) (first : Nat) :
    firstBadPoint points first = (points.findIdx? fun o => !o.any LawPoint.inRange).map (first + ·) := by
  induction points generalizing first with
  | nil => rfl
  | cons o rest ih =>
    have hnext : ∀ k : Option Nat, k.map (first + 1 + ·) = (k.map (· + 1)).map (first + ·) := fun k => by
      simp [Function.comp_def, Nat.add_assoc, Nat.add_comm 1]
    rw [List.findIdx?_cons]
    cases o with
    | none => rfl
    | some p =>
      by_cases hp : p.inRange = true
      · simp [firstBadPoint, hp, ih, hnext]
      · simp [firstBadPoint, hp]

theorem firstBadPoint_loadPoints (c : Cell) (first : Nat) : firstBadPoint (Cell.loadPoints c) first =
    ((List.range (Cell.count c)).findIdx? fun k => !(Cell.loadPoint c k).any LawPoint.inRange).map (first + ·) := by
  rw [firstBadPoint_eq_findIdx, loadPoints_eq_map, List.findIdx?_map]
  rfl

section FirstBad

variable {c : Cell} {first : Nat}

theorem firstBadPoint_loadPoints_eq_none : firstBadPoint (Cell.loadPoints c) first = none ↔
    ∀ k < Cell.count c, Cell.GoodPoint c k := by
  simp [firstBadPoint_loadPoints, List.findIdx?_eq_none_iff]

theorem firstBadPoint_loadPoints_eq_some {j : Nat} : firstBadPoint (Cell.loadPoints c) first = some j ↔
    ∃ k < Cell.count c, j = first + k ∧ ¬Cell.GoodPoint c k ∧ ∀ m < k, Cell.GoodPoint c m := by
  simp only [firstBadPoint_loadPoints, Option.map_eq_some_iff, List.findIdx?_eq_some_iff_getElem, List.length_range,
    List.getElem_range, Bool.not_eq_true', Bool.eq_false_iff, ne_eq, not_not]
  constructor
  · rintro ⟨k, ⟨hk, hbad, hbefore⟩, rfl⟩
    exact ⟨k, hk, rfl, hbad, hbefore⟩
  · rintro ⟨k, hk, rfl, hbad, hbefore⟩
    exact ⟨k, ⟨hk, hbad, hbefore⟩, rfl⟩

end FirstBad

/-! ### A table under a load: its shadow bank (R75, R80) -/

section Shadow

variable (t : LawTable) (b : LawBank)

@[simp] theorem LawTable.setShadow_active : (t.setShadow b).active = t.active := by
  unfold LawTable.setShadow
  split <;> rfl

@[simp] theorem LawTable.setShadow_pending : (t.setShadow b).pending = t.pending := by
  unfold LawTable.setShadow
  split <;> rfl

@[simp] theorem LawTable.setShadow_shadow : (t.setShadow b).shadow = b := by
  unfold LawTable.setShadow LawTable.shadow
  cases t.active <;> rfl

@[simp] theorem LawTable.setShadow_activeBank : (t.setShadow b).activeBank = t.activeBank := by
  unfold LawTable.setShadow LawTable.activeBank
  cases t.active <;> rfl

end Shadow

/-- A position outside those a load names keeps its point. -/
theorem LawBank.load_points_outside (b : LawBank) (c : Cell) {first : Nat} (count : Option Nat) {j : Fin 32}
    (h : ¬(first ≤ (j : Nat) ∧ (j : Nat) < first + Cell.count c)) :
    (b.load first (Cell.loadPoints c) count).points[j] = b.points[j] := by
  by_cases hj : first ≤ (j : Nat)
  · have hpast : Cell.count c ≤ j - first := by omega
    simp [LawBank.load, loadPoints_eq_map, List.getD_eq_getElem?_getD, hpast]
  · simp [LawBank.load, hj]

/-- A position a load names takes the point the payload carries for it. -/
theorem LawBank.load_points_inside (b : LawBank) {c : Cell} {first : Nat} (count : Option Nat) {j : Fin 32} {p : LawPoint}
    (hlow : first ≤ (j : Nat)) (hhigh : (j : Nat) < first + Cell.count c) (hp : Cell.loadPoint c (j - first) = some p) :
    (b.load first (Cell.loadPoints c) count).points[j] = p := by
  have hnamed : (j : Nat) - first < Cell.count c := by omega
  simp [LawBank.load, loadPoints_eq_map, List.getD_eq_getElem?_getD, hnamed, hlow, hp]

/-! ### The six checks of LAW_LOAD (R79) -/

/-- LAW_LOAD with its request in hand is its handler. -/
theorem exec_lawLoad_of_holds {s : State} {c : Cell} (h : s.holds 0x04 c) : exec .lawLoad s = .next (loadLaw c s) :=
  congrArg Host.Outcome.next (onRequest_of_holds h loadLaw)

theorem tableOf_eq_none {n : Nat} (h : 4 ≤ n) : tableOf n = none := dif_neg (Nat.not_lt.mpr h)

theorem tableOf_val (k : TableNo) : tableOf k = some k := dif_pos k.isLt

/-- A load of no points, of more than 8, or of points the payload does not complete (row 2 of R79). -/
abbrev Cell.BadCount (c : Cell) : Prop := Cell.count c < 1 ∨ 8 < Cell.count c ∨ Cell.payloadLength c < 4 * Cell.count c

/-- The new point count of a load, where it carries one, is at most 32 (row 5 of R79). -/
abbrev Cell.CountFits (c : Cell) : Prop := ∀ n, Cell.operand c (4 * Cell.count c) = some n → n.toNat ≤ 32

/-- A bank that a load may not touch: a swap of its table is pending, or it is marked in use (row 6 of R79). -/
abbrev State.ShadowTaken (s : State) (k : TableNo) : Prop :=
  s.laws[k].pending = true ∨ s.lawMark = some (k, s.laws[k].active.other)

/-- The table a load leaves: its points and its point count in the shadow bank (R80). -/
def LawTable.loaded (t : LawTable) (c : Cell) : LawTable :=
  t.setShadow (t.shadow.load (Cell.index c) (Cell.loadPoints c) (Cell.newCount c))

section Checks

variable {s : State} {c : Cell} {k : TableNo}

theorem newCount_above_eq_none (h : Cell.CountFits c) : (Cell.newCount c).filter (fun k => decide (32 < k)) = none := by
  rw [Option.filter_eq_none_iff]
  rintro _ hn
  obtain ⟨n, hoperand, rfl⟩ := Option.map_eq_some_iff.mp hn
  simpa using h n hoperand

theorem newCount_above_eq_some {n : Byte} (hn : Cell.operand c (4 * Cell.count c) = some n) (h : 32 < n.toNat) :
    (Cell.newCount c).filter (fun k => decide (32 < k)) = some n.toNat := by
  rw [Cell.newCount, hn, Option.map_some, Option.filter_some_pos (by simpa using h)]

/-- Row 1 of R79: the table number. -/
theorem loadLaw_noTable (h : 4 ≤ Cell.target c) : loadLaw c s = s.answer c .badIndex [] := by
  rw [loadLaw, tableOf_eq_none h]

/-- Row 2 of R79: the count of points, and the payload that is to carry them. -/
theorem loadLaw_badCount (htable : Cell.target c = k) (h : Cell.BadCount c) : loadLaw c s = s.answer c .badValue [] := by
  rw [loadLaw, htable, tableOf_val]
  exact if_pos h

/-- Row 3 of R79: the positions. -/
theorem loadLaw_pastEnd (htable : Cell.target c = k) (hcount : ¬Cell.BadCount c)
    (h : 32 < Cell.index c + Cell.count c) : loadLaw c s = s.answer c .badIndex [] := by
  rw [loadLaw, htable, tableOf_val]
  exact (if_neg hcount).trans (if_pos h)

section Placed

variable (htable : Cell.target c = k) (hcount : ¬Cell.BadCount c) (hplace : ¬32 < Cell.index c + Cell.count c)

include htable hcount hplace

/-- Row 4 of R79: the first bad point, by its position. -/
theorem loadLaw_badPoint {j : Nat} (hbad : firstBadPoint (Cell.loadPoints c) (Cell.index c) = some j) :
    loadLaw c s = s.answer c .badValue [byteNat j] := by
  rw [loadLaw, htable, tableOf_val]
  dsimp only
  rw [if_neg hcount, if_neg hplace, hbad]

/-- Row 5 of R79: a new point count above 32. -/
theorem loadLaw_badNewCount {n : Byte} (hgood : firstBadPoint (Cell.loadPoints c) (Cell.index c) = none)
    (hn : Cell.operand c (4 * Cell.count c) = some n) (habove : 32 < n.toNat) :
    loadLaw c s = s.answer c .badValue [0xFF] := by
  rw [loadLaw, htable, tableOf_val]
  dsimp only
  rw [if_neg hcount, if_neg hplace, hgood, newCount_above_eq_some hn habove]

/-- Row 6 of R79: a shadow bank that is to be swapped or that the operation in flight reads. -/
theorem loadLaw_busy (hgood : firstBadPoint (Cell.loadPoints c) (Cell.index c) = none) (hfits : Cell.CountFits c)
    (htaken : s.ShadowTaken k) : loadLaw c s = s.answer c .busy [] := by
  rw [loadLaw, htable, tableOf_val]
  dsimp only
  rw [if_neg hcount, if_neg hplace, hgood, newCount_above_eq_none hfits]
  rcases htaken with hpending | hmark
  · exact if_pos hpending
  · exact (congrArg _ (if_pos hmark)).trans (ite_self _)

/-- R80: a request that passes all six checks is carried out and answered DONE. -/
theorem loadLaw_accepted (hgood : firstBadPoint (Cell.loadPoints c) (Cell.index c) = none) (hfits : Cell.CountFits c)
    (hfree : ¬s.ShadowTaken k) :
    loadLaw c s = (s.setLaws (s.laws.set k (s.laws[k].loaded c))).answer c .done [] := by
  obtain ⟨hpending, hmark⟩ := not_or.mp hfree
  rw [loadLaw, htable, tableOf_val]
  dsimp only
  rw [if_neg hcount, if_neg hplace, hgood, newCount_above_eq_none hfits]
  exact (if_neg hpending).trans (if_neg hmark)

end Placed

/-- R80: the positions a load names take its points in the order given, and the others keep theirs. -/
theorem loaded_points (t : LawTable) (hgood : firstBadPoint (Cell.loadPoints c) (Cell.index c) = none) (j : Fin 32) :
    (Cell.index c ≤ j → (j : Nat) < Cell.index c + Cell.count c →
      some (t.loaded c).shadow.points[j].deviation = Cell.operandInt c (4 * (j - Cell.index c)) ∧
      some (t.loaded c).shadow.points[j].gain = Cell.operandInt c (4 * (j - Cell.index c) + 2)) ∧
    (¬(Cell.index c ≤ j ∧ (j : Nat) < Cell.index c + Cell.count c) →
      (t.loaded c).shadow.points[j] = t.shadow.points[j]) := by
  rw [LawTable.loaded, LawTable.setShadow_shadow]
  refine ⟨fun hlow hhigh => ?_, LawBank.load_points_outside _ _ _⟩
  obtain ⟨p, hp⟩ := (firstBadPoint_loadPoints_eq_none.mp hgood (j - Cell.index c) (by omega)).carried
  obtain ⟨hd, hg⟩ := loadPoint_eq_some_iff.mp hp
  rw [LawBank.load_points_inside _ _ hlow hhigh hp]
  exact ⟨hd.symm, hg.symm⟩

end Checks

/-- Settles O19: the first bad point, the refusals check by check, and the table an accepted load leaves. -/
theorem lawLoadChecksAndWrites : Obligations.LawLoadChecksAndWrites := by
  refine ⟨fun c good hgood => ?_, fun s c h => ⟨fun hbad => ?_, fun k htable => ⟨fun hbad => ?_, ?_⟩⟩, ?_⟩
  · have hpoint : ∀ k, good k ↔ Cell.GoodPoint c k := fun k => (hgood k).trans goodPoint_iff.symm
    simp only [hpoint]
    exact ⟨firstBadPoint_loadPoints_eq_none, fun j => firstBadPoint_loadPoints_eq_some⟩
  · rw [exec_lawLoad_of_holds h, loadLaw_noTable hbad]
  · rw [exec_lawLoad_of_holds h, loadLaw_badCount htable hbad]
  · intro hlow hhigh hwhole
    have hcount : ¬Cell.BadCount c := by
      unfold Cell.BadCount
      omega
    rw [exec_lawLoad_of_holds h]
    refine ⟨fun hpast => ?_, fun hinside => ⟨fun j hbad => ?_, fun hgood => ⟨fun n hn habove => ?_,
      fun hfits htaken => ?_⟩⟩⟩
    · rw [loadLaw_pastEnd htable hcount hpast]
    · rw [loadLaw_badPoint htable hcount (Nat.not_lt.mpr hinside) hbad]
      rfl
    · rw [loadLaw_badNewCount htable hcount (Nat.not_lt.mpr hinside) hgood hn habove]
    · rw [loadLaw_busy htable hcount (Nat.not_lt.mpr hinside) hgood hfits htaken]
  · intro s c k h htable hlow hhigh hwhole hinside hgood hfits hidle hmark
    have hcount : ¬Cell.BadCount c := by
      unfold Cell.BadCount
      omega
    have hfree : ¬s.ShadowTaken k := not_or.mpr ⟨Bool.eq_false_iff.mp hidle, hmark⟩
    refine ⟨s.laws[k].loaded c, ?_, LawTable.setShadow_active .., ?_, LawTable.setShadow_activeBank .., ?_,
      loaded_points _ hgood⟩
    · rw [exec_lawLoad_of_holds h, loadLaw_accepted htable hcount (Nat.not_lt.mpr hinside) hgood hfits hfree]
      rfl
    · rw [LawTable.loaded, LawTable.setShadow_pending, hidle]
    · rw [LawTable.loaded, LawTable.setShadow_shadow]
      rfl

end Sys2Proof.Machine
end

/-! ## The Law Engine: completions of RETUNE, RESCALE, PROFILE_EXCHANGE, GAIN_FORCE and GAIN_RELEASE (R98, R102, R106 to R108) -/

section
namespace Sys2Proof.Machine

/-! ### The row of the table that completes an operation -/

/-- The completion row of a directive. -/
def DirectiveOp.completion : DirectiveOp → Instr
  | .exchange _ _ => .profileExchangeCompletion
  | .force _ _ => .gainForceCompletion
  | .release => .gainReleaseCompletion

/-- The completion row of an operation. -/
def Operation.completion : Operation → Instr
  | .retune => .retuneCompletion
  | .rescale => .rescaleCompletion
  | .cue _ => .cueCompletion
  | .directive d _ => d.completion
  | .probe _ _ => .probeCompletion

section Rows

variable {s : State} {f : InFlight}

/-- The row of the operation in flight completes it, with its effects or its discard. -/
theorem exec_completion (hf : s.engine = some f) : exec f.op.completion s = .next (s.finish f operationEffects) := by
  have hfinish {kind : Operation → Bool} (hkind : kind f.op = true) :
      (.next (onEngine kind operationEffects s) : Host.Outcome State Fault Refusal) =
        .next (s.finish f operationEffects) :=
    congrArg Host.Outcome.next (onEngine_of hf hkind operationEffects)
  cases hop : f.op with
  | retune => exact hfinish (by rw [hop])
  | rescale => exact hfinish (by rw [hop])
  | cue e => exact hfinish (by rw [hop])
  | directive d r =>
    cases d with
    | exchange expected new => exact hfinish (by rw [hop])
    | force gain snap => exact hfinish (by rw [hop])
    | release => exact hfinish (by rw [hop])
  | probe q r => exact hfinish (by rw [hop])

theorem exec_completion_of_inFlight (h : s.inFlight f) :
    exec f.op.completion s = .next (operationEffects f s).idleEngine := by
  obtain ⟨hengine, hdiscard⟩ := h
  rw [exec_completion hengine, State.finish, hdiscard]
  rfl

theorem exec_completion_of_discarded (hf : s.engine = some f) (hd : f.discard = true) :
    exec f.op.completion s = .next (s.discardOperation f.op).idleEngine := by
  rw [exec_completion hf, State.finish, if_pos hd]

variable {d : DirectiveOp} {r : Reply}

theorem exec_directiveCompletion_of_inFlight (h : s.inFlight f) (hop : f.op = .directive d r) :
    exec d.completion s = .next (completeDirective d r f s).idleEngine := by
  have hrow := exec_completion_of_inFlight h
  rw [operationEffects, hop] at hrow
  exact hrow

/-- A discarded directive is answered ABORTED, and nothing else is left of it (R98). -/
theorem exec_directiveCompletion_of_discarded (hf : s.engine = some f) (hd : f.discard = true)
    (hop : f.op = .directive d r) : exec d.completion s = .next (s.idleEngine.fill r .aborted []) := by
  have hrow := exec_completion_of_discarded hf hd
  rw [hop] at hrow
  exact hrow

/-- The row of a RETUNE or RESCALE in flight carries out what the two have in common (R101, R102). -/
theorem exec_automaticCompletion_of_inFlight (h : s.inFlight f) (hop : f.op = .retune ∨ f.op = .rescale) :
    (if f.op = .retune then exec .retuneCompletion s else exec .rescaleCompletion s) =
      .next (completeAutomatic f s).idleEngine := by
  have hrow := exec_completion_of_inFlight h
  rw [operationEffects] at hrow
  rcases hop with hop | hop
  · rw [hop] at hrow ⊢
    exact hrow
  · rw [hop] at hrow ⊢
    exact hrow

end Rows

/-! ### Changes of a programme's records (R33, R34, R91, R140) -/

/-- A gain within the range is not changed by another clamp to it. -/
theorem clampGain_clampGain {low high : Int} (h : low ≤ high) (g : Int) :
    clampGain low high (clampGain low high g) = clampGain low high g := by
  have hlow := clampGain_ge (g := g) h
  have hhigh := clampGain_le (g := g) h
  rw [clampGain, if_neg (by omega), if_neg (by omega)]

theorem ProgSet.erase_erase (a : ProgSet) (p : Prog) : ProgSet.erase (ProgSet.erase a p) p = ProgSet.erase a p := by
  simp only [ProgSet.erase, BitVec.and_assoc, BitVec.and_self]

/-- A programme that has left both sets leaves them no further. -/
theorem Arbiter.leave_leave (a : Arbiter) (p : Prog) : (a.leave p).leave p = a.leave p := by
  simp only [Arbiter.leave, ProgSet.erase_erase]

theorem ProgRecord.toState_eq (r : ProgRecord) (st : ProgState) : r.toState st =
    { r with state := st, generation := if r.state = st then r.generation else r.generation + 1 } := by
  unfold ProgRecord.toState
  split
  · next h => rw [← h]
  · rfl

/-- A programme that leaves both sets after a move leaves the same arbiter as without the move. -/
theorem moveTo_arbiter_leave (s : State) (p : Prog) (st : ProgState) :
    (s.moveTo p st).arbiter.leave p = s.arbiter.leave p := by
  rw [State.moveTo_arbiter]
  split
  · exact Arbiter.leave_leave _ _
  · rfl

theorem requestRetune_eq (s : State) (p : Prog) :
    s.requestRetune p = { s with arbiter := { s.arbiter with retune :=
      if s.arbiter.retuneOn = true ∧ s.progs[p].state = .tracking then ProgSet.insert s.arbiter.retune p
      else s.arbiter.retune } } := by
  simp only [State.requestRetune, Bool.and_eq_true, tracking_iff]

theorem opened_eq_false {s : State} {p : Prog} (hp : s.progs[p].state = .unused) : s.opened p = false := by
  rw [State.opened, hp]
  rfl

theorem setTarget_of_opened {s : State} {p : Prog} (hp : s.progs[p].state ≠ .unused) (g : Int) :
    s.setTarget p g = s.setGain p { s.gains[p] with
      target := clampGain (s.activeProfile p).gainMin (s.activeProfile p).gainMax g } := by
  rw [State.setTarget, if_pos ((opened_iff s p).mpr hp)]
  rfl

/-- The active profile is that of the programme's record. -/
theorem activeProfile_of_profile {s : State} {p : Prog} {q : ProfileNo} (h : s.progs[p].profile = q) :
    s.activeProfile p = s.profiles[q] := by
  rw [State.activeProfile, ← h]

/-- A new profile on a programme in use: one increment of the generation, and the target clamped to the new stored range. -/
theorem setProfile_of_opened {s : State} {p : Prog} (hp : s.progs[p].state ≠ .unused) (q : ProfileNo) :
    s.setProfile p q = { s with
      progs := s.progs.set p { s.progs[p] with profile := q, generation := s.progs[p].generation + 1 }
      gains := s.gains.set p { s.gains[p] with
        target := clampGain s.profiles[q].gainMin s.profiles[q].gainMax s.gains[p].target } } := by
  rw [State.setProfile, setTarget_of_opened (by simpa using hp), activeProfile_of_profile (q := q) (by simp)]
  rfl

/-! ### RETUNE and RESCALE (R102) -/

section Automatic

variable {s : State} {snap : Snapshot} {stored : Profile} {k : Computation} {table : TableNo} {letter : Bank}

/-- Step 1 of R102 without a measured value: nothing is proposed. -/
theorem proposedGain_of_no_value (hk : snap.computation = some k) (hbank : snap.bank = some (table, letter))
    (hv : k.measured = none) : s.proposedGain snap stored = none := by
  simp [State.proposedGain, State.propose, hk, hbank, hv]

/-- Steps 2 to 6 of R102: the tolerance is tested on the law's gain before the clamp, the pressure on the clamped gain. -/
theorem proposedGain_of_value {v proposed clamped : Int} (hk : snap.computation = some k)
    (hbank : snap.bank = some (table, letter)) (hv : k.measured = some v)
    (hproposed : proposed = (s.laws[table].bank letter).gainAt (v - k.profile.target))
    (hclamped : clamped = clampGain stored.gainMin stored.gainMax proposed) :
    s.proposedGain snap stored =
      if k.profile.tolerance < (proposed - snap.target).natAbs ∧ ¬(k.pressure = true ∧ snap.target < clamped) then
        some clamped
      else none := by
  subst hproposed hclamped
  simp only [State.proposedGain, State.propose, hk, hbank, hv, Option.map_some, Option.filter_some, Bool.and_eq_true,
    Bool.not_eq_true', Bool.and_eq_false_iff, decide_eq_true_eq, decide_eq_false_iff_not, not_and_or, Bool.not_eq_true,
    apply_ite (Option.map Proposal.clamped), Option.map_none]

variable {f : InFlight}

/-- A RETUNE or RESCALE whose snapshot still stands, and for which R102 makes no change, leaves the part as it was. -/
theorem completeAutomatic_of_no_proposal (hgen : s.progs[f.prog].generation = f.snap.generation)
    (hstaged : f.snap.staged = 0) (hg : s.proposedGain f.snap (s.activeProfile f.prog) = none) :
    completeAutomatic f s = s := by
  simp only [completeAutomatic, hgen, hstaged, hg, ne_eq, not_true_eq_false, if_false]

/-- A RETUNE or RESCALE whose snapshot still stands makes the gain that R102 arrives at its target. -/
theorem completeAutomatic_of_proposal {g : Int} (hgen : s.progs[f.prog].generation = f.snap.generation)
    (hstaged : f.snap.staged = 0) (hg : s.proposedGain f.snap (s.activeProfile f.prog) = some g) :
    completeAutomatic f s = s.setTarget f.prog g := by
  simp only [completeAutomatic, hgen, hstaged, hg, ne_eq, not_true_eq_false, if_false]

end Automatic

/-- Settles O33: R102 proposes no gain, or the clamped one, and the second clamp of the set-target claim does not change it. -/
theorem retunesAndRescalesSetTheTarget : Obligations.RetunesAndRescalesSetTheTarget := by
  intro s f k table letter value h hop hgen hstaged hk hbank hused hrange hvalue
  replace hvalue : value = k.measured := hvalue
  refine ⟨_, exec_automaticCompletion_of_inFlight h hop, fun hnone => ?_, fun v proposed clamped hsome hproposed hclamped => ?_⟩
  · have hv : k.measured = none := hvalue.symm.trans hnone
    rw [completeAutomatic_of_no_proposal hgen hstaged (proposedGain_of_no_value hk hbank hv)]
    rfl
  · have hgain := proposedGain_of_value hk hbank (hvalue.symm.trans hsome) hproposed hclamped
    refine ⟨fun hkeep => ?_, fun htolerance hpressure => ?_⟩
    · rw [if_neg fun ⟨hpast, hfree⟩ => hkeep.elim (Int.not_le.mpr hpast) hfree] at hgain
      rw [completeAutomatic_of_no_proposal hgen hstaged hgain]
      rfl
    · rw [if_pos ⟨htolerance, fun hraise => Int.not_le.mpr hraise.2 (hpressure hraise.1)⟩] at hgain
      rw [completeAutomatic_of_proposal hgen hstaged hgain, setTarget_of_opened hused, hclamped, clampGain_clampGain hrange]
      rfl

/-! ### PROFILE_EXCHANGE (R106) -/

section Exchange

variable {s : State} {p : Prog} {expected : Option ProfileNo} {new : ProfileNo} {r : Reply}

theorem completeExchange_of_unused (hp : s.progs[p].state = .unused) :
    completeExchange expected new r p s = s.fill r .badState [] := by
  simp [completeExchange, opened_eq_false hp]

theorem completeExchange_of_mismatch (hp : s.progs[p].state ≠ .unused) {q : ProfileNo} (hq : expected = some q)
    (hne : q ≠ s.progs[p].profile) :
    completeExchange expected new r p s = s.fill r .mismatch [byteNat s.progs[p].profile] := by
  have hother : ¬(expected = none ∨ expected = some s.progs[p].profile) := by
    subst hq
    simpa using hne
  simp only [completeExchange, (opened_iff s p).mpr hp, Bool.not_true, Bool.false_eq_true, if_false, if_neg hother]

theorem completeExchange_of_expected (hp : s.progs[p].state ≠ .unused)
    (hexpected : expected = none ∨ expected = some s.progs[p].profile) :
    completeExchange expected new r p s =
      ((s.setProfile p new).requestRetune p).fill r .done [byteNat s.progs[p].profile, byteNat new] := by
  simp only [completeExchange, (opened_iff s p).mpr hp, Bool.not_true, Bool.false_eq_true, if_false, if_pos hexpected]

end Exchange

/-- Settles O36: the discard, and the three rows of R106 on the record as it stands at completion. -/
theorem profileExchangeCompletesAgainstTheRecord : Obligations.ProfileExchangeCompletesAgainstTheRecord := by
  refine ⟨fun s f expected new r hf hd hop => exec_directiveCompletion_of_discarded hf hd hop, ?_⟩
  rintro s f p expected new old r idle h hop rfl rfl rfl
  have hrow : exec .profileExchangeCompletion s = .next (completeExchange expected new r f.prog s).idleEngine :=
    exec_directiveCompletion_of_inFlight h hop
  rw [hrow]
  refine ⟨fun hunused => ?_, fun hused ⟨q, hq, hne⟩ => ?_, fun hused hexpected => ?_⟩
  · rw [completeExchange_of_unused hunused]
    rfl
  · rw [completeExchange_of_mismatch hused hq hne]
    rfl
  · rw [completeExchange_of_expected hused hexpected, requestRetune_eq, setProfile_of_opened hused, progs_set_self]
    rfl

/-! ### GAIN_FORCE (R107) -/

section Force

variable {s : State} {p : Prog} {gain : Int} {snap : Bool} {r : Reply}

theorem completeForce_of_unused (hp : s.progs[p].state = .unused) :
    completeForce gain snap r p s = s.fill r .badState [] := by
  simp [completeForce, opened_eq_false hp]

/-- A programme made OVERRIDDEN at the forced target: out of both sets, its staged list emptied. -/
def State.forced (s : State) (p : Prog) (gain : Int) (snap : Bool) : State :=
  { s with
    progs := s.progs.set p (s.progs[p].toState .overridden)
    gains := s.gains.set p { s.gains[p].forced snap with
      target := clampGain (s.activeProfile p).gainMin (s.activeProfile p).gainMax gain }
    arbiter := s.arbiter.leave p }

/-- The claims of a GAIN_FORCE, one after another. -/
theorem forced_eq_setTarget :
    (((s.moveTo p .overridden).setArbiter ((s.moveTo p .overridden).arbiter.leave p)).setGain p
      (s.gains[p].forced snap)).setTarget p gain = s.forced p gain snap := by
  rw [setTarget_of_opened (by simp [ProgRecord.toState_eq]),
    activeProfile_of_profile (q := s.progs[p].profile) (by simp [ProgRecord.toState_eq]), moveTo_arbiter_leave]
  simp [State.forced, State.setGain, State.setArbiter, State.moveTo, State.activeProfile]

theorem completeForce_of_opened (hp : s.progs[p].state ≠ .unused) :
    completeForce gain snap r p s = (s.forced p gain snap).fill r .done
      (bytesInt (clampGain (s.activeProfile p).gainMin (s.activeProfile p).gainMax gain) ++
        [s.progs[p].state.code, byteNat s.gains[p].staged.length]) := by
  have htarget : (s.forced p gain snap).gains[p].target =
      clampGain (s.activeProfile p).gainMin (s.activeProfile p).gainMax gain := by
    simp [State.forced]
  simp only [completeForce, (opened_iff s p).mpr hp, Bool.not_true, Bool.false_eq_true, if_false,
    forced_eq_setTarget, htarget]

end Force

/-! ### GAIN_RELEASE (R108) -/

/-- A move out of OVERRIDDEN changes the programme's record alone: its sets are left by a move out of TRACKING only. -/
theorem moveTo_of_overridden {s : State} {p : Prog} (hp : s.progs[p].state = .overridden) {st : ProgState}
    (hst : st ≠ .overridden) : s.moveTo p st = { s with
      progs := s.progs.set p { s.progs[p] with state := st, generation := s.progs[p].generation + 1 } } := by
  simp only [State.moveTo, ProgRecord.toState_eq, hp, reduceCtorEq, false_and, if_false, if_neg hst.symm]

section Release

variable {s : State} {p : Prog} {r : Reply}

theorem completeGainRelease_of_not_overridden (hp : s.progs[p].state ≠ .overridden) :
    completeGainRelease r p s = s.fill r .badState [] :=
  if_neg hp

theorem completeGainRelease_of_overridden (hp : s.progs[p].state = .overridden) :
    completeGainRelease r p s = ((s.moveTo p s.progs[p].presence.released).requestRetune p).fill r .done
      [s.progs[p].presence.released.code] :=
  if_pos hp

end Release

/-- Settles O37: the two discards, and the rows of R107 and R108 on the record as it stands at completion. -/
theorem gainForceAndReleaseComplete : Obligations.GainForceAndReleaseComplete := by
  refine ⟨fun s f r hf hd => ⟨fun gain snap hop => exec_directiveCompletion_of_discarded hf hd hop,
    fun hop => exec_directiveCompletion_of_discarded hf hd hop⟩, ?_, ?_⟩
  · rintro s f p gain target snap r idle h hop rfl rfl rfl
    have hrow : exec .gainForceCompletion s = .next (completeForce gain snap r f.prog s).idleEngine :=
      exec_directiveCompletion_of_inFlight h hop
    rw [hrow]
    refine ⟨fun hunused => ?_, fun hused => ?_⟩
    · rw [completeForce_of_unused hunused]
      rfl
    · rw [completeForce_of_opened hused, State.forced, ProgRecord.toState_eq]
      rfl
  · rintro s f p r idle h hop rfl rfl
    have hrow : exec .gainReleaseCompletion s = .next (completeGainRelease r f.prog s).idleEngine :=
      exec_directiveCompletion_of_inFlight h hop
    rw [hrow]
    refine ⟨fun hother => ?_, fun hover hsilent => ?_, fun hover hpresent => ?_⟩
    · rw [completeGainRelease_of_not_overridden hother]
      rfl
    · rw [completeGainRelease_of_overridden hover, hsilent, Presence.released, moveTo_of_overridden hover (by decide),
        requestRetune_eq, progs_set_self, if_neg (by simp)]
      rfl
    · rw [completeGainRelease_of_overridden hover, hpresent, Presence.released, moveTo_of_overridden hover (by decide),
        requestRetune_eq, progs_set_self]
      simp only [and_true]
      rfl

end Sys2Proof.Machine
end

/-! ## Cues: due blocks, the current boundary and the comparison of link times (R117) -/

section
namespace Sys2Proof.Machine

/-! ### The roundings of R117 -/

/-- The low six bits of a link time cleared: the bits above them shifted out and back. -/
theorem clearLowSix_eq_shifts (t : LinkTime) : t &&& ~~~(63 : LinkTime) = (t >>> 6) <<< 6 := by
  have hmask : ∀ i < 32, (~~~(63 : LinkTime)).getLsbD i = decide (6 ≤ i) := by decide
  refine BitVec.eq_of_getLsbD_eq fun i hi => ?_
  rw [BitVec.getLsbD_and, hmask i hi, BitVec.getLsbD_shiftLeft, BitVec.getLsbD_ushiftRight]
  by_cases hlow : i < 6
  · simp [hlow]
  · simp [hlow, hi, Nat.le_of_not_lt hlow]

theorem clearLowSix_toNat (t : LinkTime) : (t &&& ~~~(63 : LinkTime)).toNat = t.toNat / 64 * 64 := by
  have hlt : t.toNat / 64 * 64 < 2 ^ 32 := (Nat.div_mul_le_self _ _).trans_lt t.isLt
  rw [clearLowSix_eq_shifts, BitVec.toNat_shiftLeft, BitVec.toNat_ushiftRight, Nat.shiftLeft_eq, Nat.shiftRight_eq_div_pow]
  exact Nat.mod_eq_of_lt hlt

theorem currentBoundary_toNat (t : LinkTime) : (currentBoundary t).toNat = t.toNat / 64 * 64 := clearLowSix_toNat t

/-- A due time in the last 63 frames before the wrap rounds up to 0. -/
theorem dueBlock_toNat (t : LinkTime) : (dueBlock t).toNat = (t.toNat + 63) / 64 * 64 % 4294967296 := by
  have hsum : (t + 63).toNat = (t.toNat + 63) % 4294967296 := BitVec.toNat_add t 63
  rw [dueBlock, clearLowSix_toNat, hsum]
  omega

/-! ### The comparisons (00_scope.md, "Link time comparison") -/

/-- The distance from one link time up to another, modulo 2^32. -/
theorem linkTime_sub_toNat (t u : LinkTime) : (t - u).toNat = (t.toNat + 4294967296 - u.toNat) % 4294967296 := by
  rw [BitVec.toNat_sub]
  omega

theorem atOrAfter_iff {t u : LinkTime} : atOrAfter t u = true ↔ (t.toNat + 4294967296 - u.toNat) % 4294967296 < 2147483648 := by
  rw [atOrAfter, decide_eq_true_eq, linkTime_sub_toNat]
  rfl

theorem atOrBefore_iff {t u : LinkTime} :
    atOrBefore t u = true ↔ (u.toNat + 4294967296 - t.toNat) % 4294967296 < 2147483648 :=
  atOrAfter_iff

theorem before_iff {t u : LinkTime} : before t u = true ↔ 2147483648 ≤ (t.toNat + 4294967296 - u.toNat) % 4294967296 := by
  rw [before, Bool.not_eq_true', ← Bool.not_eq_true, atOrAfter_iff, Nat.not_lt]

/-- A time is after another where the other is before it. -/
theorem after_iff {t u : LinkTime} : after t u = true ↔ 2147483648 ≤ (u.toNat + 4294967296 - t.toNat) % 4294967296 :=
  before_iff

end Sys2Proof.Machine
end

/-! ## Cues: the operands of CUE_POST (R116, R118) -/

section
namespace Sys2Proof.Machine

/-- The codes of the cue kinds, read back (section 8.12). -/
theorem cueKindOf_eq_some_iff {b : Byte} {k : CueKind} : cueKindOf b = some k ↔ b = k.code := by
  constructor
  · intro h
    unfold cueKindOf at h
    split_ifs at h with h0 h1 h2 h3 h4 <;> cases h <;> assumption
  · rintro rfl
    cases k <;> rfl

/-- The table of R116: the required fields are present, and those not taken absent. -/
theorem CueKind.takes_iff (k : CueKind) (profile gain snap : Bool) : k.takes profile gain snap = true ↔
    (k = .switch → profile = true) ∧ (k = .preset → gain = true) ∧
    (k = .hold ∨ k = .release ∨ k = .preset → profile = false) ∧
    (k = .switch ∨ k = .hold ∨ k = .release → gain = false ∧ snap = false) := by
  cases k <;> simp [CueKind.takes, and_assoc, and_comm]

/-- A marked field is the one read, which must be there; an unmarked one is absent. -/
theorem optionalField_eq_some_iff {α : Type} {marked : Bool} {field v : Option α} :
    optionalField marked field = some v ↔ (marked = true → v ≠ none ∧ v = field) ∧ (marked = false → v = none) := by
  cases marked with
  | false => simp [optionalField, eq_comm]
  | true => cases field <;> simp +contextual [optionalField, eq_comm]

/-- The operands are read where the time, the kind and the marks are there, both optional fields can be read, and the kind takes
what is given. -/
theorem cueOperands_eq_some_iff_fields {c : Cell} {o : CueOperands} : Cell.cueOperands c = some o ↔ ∃ marks,
    Cell.operand32 c 0 = some o.time ∧ (Cell.operand c 4).bind cueKindOf = some o.kind ∧ Cell.operand c 5 = some marks ∧
    optionalField (markBit marks 0) (Cell.profileOperand c 6) = some o.profile ∧
    optionalField (markBit marks 1) (Cell.gainOperand c 7) = some o.gain ∧ markBit marks 2 = o.snap ∧
    o.kind.takes o.profile.isSome o.gain.isSome o.snap = true := by
  obtain ⟨time, kind, profile, gain, snap⟩ := o
  constructor
  · intro h
    unfold Cell.cueOperands at h
    split at h
    · next time' kind' marks htime hkind hmarks =>
      split at h
      · next profile' gain' hprofile hgain =>
        split at h
        · next htakes =>
          cases h
          exact ⟨marks, htime, hkind, hmarks, hprofile, hgain, rfl, htakes⟩
        · cases h
      · cases h
    · cases h
  · rintro ⟨marks, htime, hkind, hmarks, hprofile, hgain, rfl, htakes⟩
    simp only [Cell.cueOperands, htime, hkind, hmarks, hprofile, hgain]
    exact if_pos htakes

/-- The operands that pass row 3 of R118, byte by byte (section 8.12, cue operands). -/
theorem cueOperands_eq_some_iff {c : Cell} {o : CueOperands} : Cell.cueOperands c = some o ↔
    Cell.operand32 c 0 = some o.time ∧ Cell.operand c 4 = some o.kind.code ∧
    (∃ marks, Cell.operand c 5 = some marks ∧ o.snap = marks.getLsbD 2 ∧
      (marks.getLsbD 0 = true → o.profile ≠ none ∧ o.profile = Cell.profileOperand c 6) ∧
      (marks.getLsbD 0 = false → o.profile = none) ∧
      (marks.getLsbD 1 = true → o.gain ≠ none ∧ o.gain = Cell.gainOperand c 7) ∧
      (marks.getLsbD 1 = false → o.gain = none)) ∧
    o.kind.takes o.profile.isSome o.gain.isSome o.snap = true := by
  have hkind : (Cell.operand c 4).bind cueKindOf = some o.kind ↔ Cell.operand c 4 = some o.kind.code := by
    simp [Option.bind_eq_some_iff, cueKindOf_eq_some_iff]
  rw [cueOperands_eq_some_iff_fields]
  simp only [hkind, optionalField_eq_some_iff, markBit]
  constructor
  · rintro ⟨marks, htime, hcode, hmarks, ⟨hp1, hp0⟩, ⟨hg1, hg0⟩, hsnap, htakes⟩
    exact ⟨htime, hcode, ⟨marks, hmarks, hsnap.symm, hp1, hp0, hg1, hg0⟩, htakes⟩
  · rintro ⟨htime, hcode, ⟨marks, hmarks, hsnap, hp1, hp0, hg1, hg0⟩, htakes⟩
    exact ⟨marks, htime, hcode, hmarks, ⟨hp1, hp0⟩, ⟨hg1, hg0⟩, hsnap.symm, htakes⟩

end Sys2Proof.Machine
end

/-! ## Cues: the seven checks of CUE_POST (R118) -/

section
namespace Sys2Proof.Machine

theorem Cue.names_iff {p : Prog} {d : LinkTime} {e : Cue} : Cue.names p d e = true ↔ e.prog = p ∧ e.block = d := by
  simp [Cue.names]

theorem not_opened_iff {s : State} {p : Prog} : (!s.opened p) = true ↔ s.progs[p].state = .unused := by
  rw [Bool.not_eq_true', ← Bool.not_eq_true, opened_iff, not_not]

/-- CUE_POST with its request in hand is its handler. -/
theorem exec_cuePost_of_holds {s : State} {c : Cell} (h : s.holds 0x09 c) : exec .cuePost s = .next (postCue c s) :=
  congrArg Host.Outcome.next (onRequest_of_holds h postCue)

/-- Row 4 of R118: a due block that is ahead is more than 2^27 frames from the current link time. -/
abbrev State.PostTooFar (s : State) (d : LinkTime) : Prop :=
  after d (currentBoundary s.currentTime) = true ∧ farLead < (d - s.currentTime).toNat

/-- Row 5 of R118: a passed due block is more than 768 frames before the current boundary. -/
abbrev State.PostTooLate (s : State) (d : LinkTime) : Prop :=
  after d (currentBoundary s.currentTime) = false ∧ nearLateness < (currentBoundary s.currentTime - d).toNat

/-- Row 6 of R118: the entry of the programme and due block is DUE. -/
abbrev State.PostMeetsDue (s : State) (p : Prog) (d : LinkTime) : Prop :=
  ∃ e ∈ s.cues, e.prog = p ∧ e.block = d ∧ e.due = true

/-- Row 7 of R118: the queue is full and no entry is of the programme and due block. -/
abbrev State.PostFindsNoPlace (s : State) (p : Prog) (d : LinkTime) : Prop :=
  32 ≤ s.cues.length ∧ ∀ e ∈ s.cues, ¬(e.prog = p ∧ e.block = d)

/-- The entry that an accepted post forms (R119, R121). -/
def State.postedCue (s : State) (p : Prog) (o : CueOperands) : Cue :=
  let passed := !after (dueBlock o.time) (currentBoundary s.currentTime)
  { prog := p, block := dueBlock o.time, kind := o.kind, profile := o.profile, gain := o.gain, snap := o.snap,
    due := passed && s.rx.lock == .running, late := passed }

/-- A post that has passed every check: its entry inserted and the request answered DONE (R119 to R122). -/
def State.acceptPost (s : State) (c : Cell) (p : Prog) (o : CueOperands) : State :=
  let new := s.postedCue p o
  let replaced := s.cues.any (Cue.names p new.block)
  let inserted := s.insertPosted new replaced
  inserted.answer c .done
    (bytes32 new.block ++ [mark new.due 0 ||| mark new.late 1 ||| mark replaced 2, byteNat inserted.cues.length])

section Checks

variable {s : State} {c : Cell} {p : Prog} {o : CueOperands}

/-- Row 1 of R118: the programme. -/
theorem postCue_badIndex (hprog : Cell.programme c = none) : postCue c s = s.answer c .badIndex [] := by
  rw [postCue, hprog]

/-- Row 2 of R118: an UNUSED programme. -/
theorem postCue_unused (hprog : Cell.programme c = some p) (hunused : s.progs[p].state = .unused) :
    postCue c s = s.answer c .badState [] := by
  rw [postCue, hprog]
  exact if_pos (not_opened_iff.mpr hunused)

/-- Row 3 of R118: the operands. -/
theorem postCue_badValue (hprog : Cell.programme c = some p) (hused : s.progs[p].state ≠ .unused)
    (hbad : Cell.cueOperands c = none) : postCue c s = s.answer c .badValue [] := by
  rw [postCue, hprog]
  dsimp only
  rw [if_neg (mt not_opened_iff.mp hused), hbad]

/-- A request that passes rows 1 to 3 of R118: rows 4 to 7 in their order, and what an accepted post does. -/
theorem postCue_of_operands (hprog : Cell.programme c = some p) (hused : s.progs[p].state ≠ .unused)
    (hgood : Cell.cueOperands c = some o) : postCue c s =
      if s.PostTooFar (dueBlock o.time) then
        s.answer c .cueFar (bytes32 (dueBlock o.time) ++ bytes32 s.currentTime)
      else if s.PostTooLate (dueBlock o.time) then
        s.answer c .cueLate (bytes32 (dueBlock o.time) ++ bytes32 s.currentTime)
      else if s.PostMeetsDue p (dueBlock o.time) then s.answer c .badState (bytes32 (dueBlock o.time))
      else if s.PostFindsNoPlace p (dueBlock o.time) then s.answer c .queueFull [byteNat s.cues.length]
      else s.acceptPost c p o := by
  have hfar : (after (dueBlock o.time) (currentBoundary s.currentTime) &&
      decide (farLead < (dueBlock o.time - s.currentTime).toNat)) = true ↔ s.PostTooFar (dueBlock o.time) := by
    rw [Bool.and_eq_true, decide_eq_true_eq]
  have hlate : (!after (dueBlock o.time) (currentBoundary s.currentTime) &&
      decide (nearLateness < (currentBoundary s.currentTime - dueBlock o.time).toNat)) = true ↔
        s.PostTooLate (dueBlock o.time) := by
    rw [Bool.and_eq_true, decide_eq_true_eq, Bool.not_eq_true']
  have hdue : (s.cues.filter (Cue.names p (dueBlock o.time))).any (·.due) = true ↔ s.PostMeetsDue p (dueBlock o.time) := by
    simp [Cue.names_iff, and_assoc]
  have hempty : (s.cues.filter (Cue.names p (dueBlock o.time))).isEmpty = true ↔
      ∀ e ∈ s.cues, ¬(e.prog = p ∧ e.block = dueBlock o.time) := by
    simp [List.filter_eq_nil_iff, Cue.names_iff]
  have hreplaced : (!(s.cues.filter (Cue.names p (dueBlock o.time))).isEmpty) =
      s.cues.any (Cue.names p (dueBlock o.time)) := by
    rw [Bool.eq_iff_iff]
    simp
  rw [postCue, hprog]
  dsimp only
  rw [if_neg (mt not_opened_iff.mp hused), hgood]
  simp only [hfar, hlate, hdue, hempty, hreplaced]
  rfl

end Checks

/-- Settles O23: the request check by check, the field table of R116, the operands, and the link times as numbers. -/
theorem cuePostChecksItsFieldsInOrder : Obligations.CuePostChecksItsFieldsInOrder := by
  refine ⟨fun s c h => ?_, CueKind.takes_iff, fun c o => cueOperands_eq_some_iff, fun t u =>
    ⟨dueBlock_toNat t, currentBoundary_toNat t, atOrBefore_iff, after_iff, before_iff⟩⟩
  rw [exec_cuePost_of_holds h]
  refine ⟨fun hprog => by rw [postCue_badIndex hprog], fun p hprog => ⟨fun hunused => by rw [postCue_unused hprog hunused],
    fun hused => ⟨fun hbad => by rw [postCue_badValue hprog hused hbad], ?_⟩⟩⟩
  rintro o _ _ hgood rfl rfl
  rw [postCue_of_operands hprog hused hgood]
  refine ⟨fun hahead hlead => by rw [if_pos ⟨hahead, hlead⟩], fun hpassed hlateness => ?_, fun hnear hfresh => ?_⟩
  · have hfar : ¬s.PostTooFar (dueBlock o.time) := fun ⟨hahead, _⟩ => Bool.false_ne_true (hpassed.symm.trans hahead)
    rw [if_neg hfar, if_pos ⟨hpassed, hlateness⟩]
  · have hfar : ¬s.PostTooFar (dueBlock o.time) := fun ⟨hahead, hlead⟩ => Nat.not_lt.mpr (hnear hahead) hlead
    have hlate : ¬s.PostTooLate (dueBlock o.time) := fun ⟨hpassed, hlateness⟩ => Nat.not_lt.mpr (hfresh hpassed) hlateness
    rw [if_neg hfar, if_neg hlate]
    refine ⟨fun hdue => by rw [if_pos hdue], fun hnone hfull => ?_⟩
    have hdue : ¬s.PostMeetsDue p (dueBlock o.time) := fun ⟨e, he, hp, hd, _⟩ => hnone e he ⟨hp, hd⟩
    rw [if_neg hdue, if_pos ⟨hfull, hnone⟩]
    rfl

end Sys2Proof.Machine
end

/-! ## Cues: CUE_WITHDRAW (R134) -/

section
namespace Sys2Proof.Machine

/-! ### The entry of a programme and due block: there is at most one (R115) -/

section Entries

variable {s : State} {e x : Cue}

theorem State.CuesKept.entry_unique (hs : s.CuesKept) (he : e ∈ s.cues) (hx : x ∈ s.cues) (hprog : x.prog = e.prog)
    (hblock : x.block = e.block) : x = e := by
  have hsymm : Std.Symm fun a b : Cue => ¬(a.prog = b.prog ∧ a.block = b.block) :=
    ⟨fun _ _ h ⟨hp, hb⟩ => h ⟨hp.symm, hb.symm⟩⟩
  exact by_contra fun hne => hs.distinct.forall hx he hne ⟨hprog, hblock⟩

theorem State.CuesKept.nodup (hs : s.CuesKept) : s.cues.Nodup :=
  hs.distinct.imp fun h heq => h (by rw [heq]; exact ⟨rfl, rfl⟩)

theorem State.CuesKept.names_iff (hs : s.CuesKept) (he : e ∈ s.cues) (hx : x ∈ s.cues) :
    Cue.names e.prog e.block x = true ↔ x = e := by
  rw [Cue.names_iff]
  constructor
  · rintro ⟨hprog, hblock⟩
    exact hs.entry_unique he hx hprog hblock
  · rintro rfl
    exact ⟨rfl, rfl⟩

theorem find_names_eq_none {p : Prog} {d : LinkTime} (h : ∀ e ∈ s.cues, ¬(e.prog = p ∧ e.block = d)) :
    s.cues.find? (Cue.names p d) = none :=
  List.find?_eq_none.mpr fun e he => mt Cue.names_iff.mp (h e he)

theorem State.CuesKept.find_names (hs : s.CuesKept) (he : e ∈ s.cues) : s.cues.find? (Cue.names e.prog e.block) = some e := by
  cases hfind : s.cues.find? (Cue.names e.prog e.block) with
  | none => exact absurd (Cue.names_iff.mpr ⟨rfl, rfl⟩) (List.find?_eq_none.mp hfind e he)
  | some x => rw [(hs.names_iff he (List.mem_of_find?_eq_some hfind)).mp (List.find?_some hfind)]

/-- Dropping every entry of a programme and due block removes the one there is, and the entries behind it close up. -/
theorem State.CuesKept.filter_not_names (hs : s.CuesKept) (he : e ∈ s.cues) :
    (s.cues.filter fun x => !Cue.names e.prog e.block x) = s.cues.erase e := by
  rw [hs.nodup.erase_eq_filter]
  refine List.filter_congr fun x hx => ?_
  rw [Bool.eq_iff_iff, Bool.not_eq_true', ← Bool.not_eq_true, hs.names_iff he hx, bne_iff_ne]

end Entries

/-! ### The answers of CUE_WITHDRAW -/

/-- CUE_WITHDRAW with its request in hand is its handler. -/
theorem exec_cueWithdraw_of_holds {s : State} {c : Cell} (h : s.holds 0x0A c) :
    exec .cueWithdraw s = .next (withdrawCue c s) :=
  congrArg Host.Outcome.next (onRequest_of_holds h withdrawCue)

section Answers

variable {s : State} {c : Cell} {p : Prog} {time : LinkTime} {e : Cue}

theorem withdrawCue_of_no_programme (hprog : Cell.programme c = none) : withdrawCue c s = s.answer c .badIndex [] := by
  rw [withdrawCue, hprog]

/-- R171: the due time is missing. -/
theorem withdrawCue_of_no_time (hprog : Cell.programme c = some p) (htime : Cell.operand32 c 0 = none) :
    withdrawCue c s = s.answer c .badValue [] := by
  rw [withdrawCue, hprog, htime]

theorem withdrawCue_of_no_entry (hprog : Cell.programme c = some p) (htime : Cell.operand32 c 0 = some time)
    (hfind : s.cues.find? (Cue.names p (dueBlock time)) = none) : withdrawCue c s = s.answer c .badIndex [] := by
  rw [withdrawCue, hprog, htime]
  dsimp only
  rw [hfind]

theorem withdrawCue_of_due (hprog : Cell.programme c = some p) (htime : Cell.operand32 c 0 = some time)
    (hfind : s.cues.find? (Cue.names p (dueBlock time)) = some e) (hdue : e.due = true) :
    withdrawCue c s = s.answer c .badState [] := by
  rw [withdrawCue, hprog, htime]
  dsimp only
  rw [hfind]
  exact if_pos hdue

theorem withdrawCue_of_pending (hs : s.CuesKept) (he : e ∈ s.cues) (hprog : Cell.programme c = some e.prog)
    (htime : Cell.operand32 c 0 = some time) (hblock : e.block = dueBlock time) (hpending : e.due = false) :
    withdrawCue c s = (s.setCues (s.cues.erase e)).answer c .done [byteNat (s.cues.length - 1)] := by
  have hdue : ¬e.due = true := by simp [hpending]
  rw [withdrawCue, hprog, htime]
  dsimp only
  rw [← hblock, hs.find_names he]
  dsimp only
  rw [if_neg hdue, hs.filter_not_names he, List.length_erase_of_mem he]

end Answers

/-- Settles O25: the programme, the due time, and then the entry they name, which is absent, DUE or PENDING. -/
theorem cueWithdrawRemovesAPendingEntry : Obligations.CueWithdrawRemovesAPendingEntry := by
  intro s c hs h
  rw [exec_cueWithdraw_of_holds h]
  refine ⟨fun hprog => by rw [withdrawCue_of_no_programme hprog], fun hprog htime => ?_, fun p time hprog htime =>
    ⟨fun hnone => by rw [withdrawCue_of_no_entry hprog htime (find_names_eq_none hnone)], ?_⟩⟩
  · obtain ⟨p, hp⟩ := Option.ne_none_iff_exists'.mp hprog
    rw [withdrawCue_of_no_time hp htime]
  · rintro e he rfl hblock
    refine ⟨fun hdue => ?_, fun hpending => ?_⟩
    · rw [withdrawCue_of_due hprog htime (hblock ▸ hs.find_names he) hdue]
    · rw [withdrawCue_of_pending hs he hprog htime hblock hpending]
      rfl

end Sys2Proof.Machine
end

/-! ## The Gain Stage: the snap and the ramp of a block boundary (R145 to R149) -/

section
namespace Sys2Proof.Machine

/-! ### One applied entry (R146) -/

section Entry

variable {q : Profile} {g : GainRecord} {e : Staged}

/-- The target: a HOLD freezes the current gain, a gain carried is the new target, and an entry without one leaves it. -/
theorem applyEntry_target : (g.applyEntry q e).target =
    if e.kind = .hold then clampGain q.gainMin q.gainMax g.current
    else e.gain.elim g.target (clampGain q.gainMin q.gainMax) := by
  unfold GainRecord.applyEntry
  split
  · next hkind => rw [if_pos hkind]
  · next hgain hkind => rw [if_neg hkind, hgain]; rfl
  · next hgain hkind =>
    rw [if_neg hkind, hgain]
    split <;> rfl

/-- The current gain: an entry that snaps sets it to the target that the entry leaves. -/
theorem applyEntry_current : (g.applyEntry q e).current =
    if e.kind ≠ .hold ∧ e.snap = true then (g.applyEntry q e).target else g.current := by
  unfold GainRecord.applyEntry
  split
  · next hkind => rw [if_neg fun h => h.1 hkind]
  · next hgain hkind => simp only [and_iff_right (show e.kind ≠ .hold from hkind)]
  · next hgain hkind =>
    simp only [and_iff_right (show e.kind ≠ .hold from hkind)]
    split <;> rfl

@[simp] theorem applyEntry_staged : (g.applyEntry q e).staged = g.staged := by
  unfold GainRecord.applyEntry
  (repeat' split) <;> rfl

@[simp] theorem applyEntry_snap : (g.applyEntry q e).snap = g.snap := by
  unfold GainRecord.applyEntry
  (repeat' split) <;> rfl

theorem applyEntry_current_of_snap (hkind : e.kind ≠ .hold) (hsnap : e.snap = true) :
    (g.applyEntry q e).current = (g.applyEntry q e).target := by
  rw [applyEntry_current, if_pos ⟨hkind, hsnap⟩]

theorem applyEntry_current_of_no_snap (hsnap : e.snap = false) : (g.applyEntry q e).current = g.current := by
  rw [applyEntry_current, if_neg fun h => Bool.false_ne_true (hsnap.symm.trans h.2)]

end Entry

/-! ### Stage 1: the due entries, one after another (R145) -/

section Stage1

variable {q : Profile} {t : LinkTime} {g : GainRecord}

theorem foldl_applyEntry_staged (l : List Staged) : (l.foldl (GainRecord.applyEntry q) g).staged = g.staged := by
  induction l generalizing g with
  | nil => rfl
  | cons e l ih => rw [List.foldl_cons, ih, applyEntry_staged]

theorem foldl_applyEntry_snap (l : List Staged) : (l.foldl (GainRecord.applyEntry q) g).snap = g.snap := by
  induction l generalizing g with
  | nil => rfl
  | cons e l ih => rw [List.foldl_cons, ih, applyEntry_snap]

theorem foldl_applyEntry_current {l : List Staged} (h : ∀ e ∈ l, e.snap = false) :
    (l.foldl (GainRecord.applyEntry q) g).current = g.current := by
  induction l generalizing g with
  | nil => rfl
  | cons e l ih =>
    rw [List.forall_mem_cons] at h
    rw [List.foldl_cons, ih h.2, applyEntry_current_of_no_snap h.1]

theorem applyStaged_staged : (g.applyStaged q t).staged = g.staged.filter fun e => !atOrBefore e.boundary t :=
  foldl_applyEntry_staged _

theorem applyStaged_snap : (g.applyStaged q t).snap = g.snap := foldl_applyEntry_snap _

theorem mem_dueEntries {e : Staged} : e ∈ g.dueEntries t ↔ e ∈ g.staged ∧ atOrBefore e.boundary t = true := List.mem_filter

theorem filter_due_eq_nil {l : List Staged} (h : ∀ x ∈ l, atOrBefore x.boundary t = false) :
    (l.filter fun x => atOrBefore x.boundary t) = [] :=
  List.filter_eq_nil_iff.mpr fun x hx => by simp [h x hx]

/-- The record as stage 1 finds it once the due entries have left the list. -/
def GainRecord.withoutDue (g : GainRecord) (t : LinkTime) : GainRecord :=
  { g with staged := g.staged.filter fun e => !atOrBefore e.boundary t }

/-- A due entry is applied after the due entries before it in the list and before those behind it. -/
theorem applyStaged_append_cons {early later : List Staged} {e : Staged} (hstaged : g.staged = early ++ e :: later)
    (hdue : atOrBefore e.boundary t = true) : g.applyStaged q t =
      (later.filter fun x => atOrBefore x.boundary t).foldl (GainRecord.applyEntry q)
        (((early.filter fun x => atOrBefore x.boundary t).foldl (GainRecord.applyEntry q) (g.withoutDue t)).applyEntry q e) := by
  have hsplit : g.dueEntries t =
      (early.filter fun x => atOrBefore x.boundary t) ++ e :: later.filter fun x => atOrBefore x.boundary t := by
    rw [GainRecord.dueEntries, hstaged, List.filter_append, List.filter_cons, if_pos hdue]
  rw [GainRecord.applyStaged, hsplit, List.foldl_append, List.foldl_cons, GainRecord.withoutDue]

theorem applyStaged_of_last_due {early later : List Staged} {e : Staged} (hstaged : g.staged = early ++ e :: later)
    (hdue : atOrBefore e.boundary t = true) (hlater : ∀ x ∈ later, atOrBefore x.boundary t = false) : g.applyStaged q t =
      ((early.filter fun x => atOrBefore x.boundary t).foldl (GainRecord.applyEntry q) (g.withoutDue t)).applyEntry q e := by
  rw [applyStaged_append_cons hstaged hdue, filter_due_eq_nil hlater]
  rfl

theorem applyStaged_of_one_due {e : Staged} {rest : List Staged} (hstaged : g.staged = e :: rest)
    (hdue : atOrBefore e.boundary t = true) (hrest : ∀ x ∈ rest, atOrBefore x.boundary t = false) :
    g.applyStaged q t = (g.withoutDue t).applyEntry q e :=
  applyStaged_of_last_due (early := []) hstaged hdue hrest

theorem applyStaged_of_two_due {e1 e2 : Staged} {rest : List Staged} (hstaged : g.staged = e1 :: e2 :: rest)
    (hdue1 : atOrBefore e1.boundary t = true) (hdue2 : atOrBefore e2.boundary t = true)
    (hrest : ∀ x ∈ rest, atOrBefore x.boundary t = false) :
    g.applyStaged q t = ((g.withoutDue t).applyEntry q e1).applyEntry q e2 := by
  rw [applyStaged_of_last_due (early := [e1]) hstaged hdue2 hrest, List.filter_cons, if_pos hdue1]
  rfl

theorem entrySnaps_eq_false (h : ∀ e ∈ g.staged, atOrBefore e.boundary t = true → e.snap = false) : g.entrySnaps t = false :=
  List.any_eq_false.mpr fun e he => by
    obtain ⟨hmem, hdue⟩ := mem_dueEntries.mp he
    simp [h e hmem hdue]

theorem entrySnaps_of_mem {e : Staged} (hmem : e ∈ g.staged) (hdue : atOrBefore e.boundary t = true) (hsnap : e.snap = true) :
    g.entrySnaps t = true :=
  List.any_eq_true.mpr ⟨e, mem_dueEntries.mpr ⟨hmem, hdue⟩, hsnap⟩

/-- Without a due entry that snaps, stage 1 leaves the current gain where it is. -/
theorem applyStaged_current (h : ∀ e ∈ g.staged, atOrBefore e.boundary t = true → e.snap = false) :
    (g.applyStaged q t).current = g.current :=
  foldl_applyEntry_current fun e he => by
    obtain ⟨hmem, hdue⟩ := mem_dueEntries.mp he
    exact h e hmem hdue

theorem applyStaged_target_of_none_due (h : ∀ e ∈ g.staged, atOrBefore e.boundary t = false) :
    (g.applyStaged q t).target = g.target := by
  rw [GainRecord.applyStaged, GainRecord.dueEntries, filter_due_eq_nil h]
  rfl

end Stage1

/-! ### The whole work of a boundary on the two gains -/

section Boundary

variable {q : Profile} {t : LinkTime} {entry : Bool} {m : Nat} {g : GainRecord}

@[simp] theorem takeSnap_target : g.takeSnap.target = g.target := by
  unfold GainRecord.takeSnap
  split <;> rfl

@[simp] theorem takeSnap_staged : g.takeSnap.staged = g.staged := by
  unfold GainRecord.takeSnap
  split <;> rfl

@[simp] theorem takeSnap_snap : g.takeSnap.snap = false := by
  unfold GainRecord.takeSnap
  split
  · rfl
  · next h => simpa using h

theorem takeSnap_current : g.takeSnap.current = if g.snap then g.target else g.current := by
  unfold GainRecord.takeSnap
  split <;> rfl

/-- Stage 6 touches the guard window and the pressure flag alone. -/
@[simp] theorem countBlock_frame : (g.countBlock q).target = g.target ∧ (g.countBlock q).current = g.current ∧
    (g.countBlock q).snap = g.snap ∧ (g.countBlock q).staged = g.staged ∧ (g.countBlock q).reduction = g.reduction := by
  unfold GainRecord.countBlock
  dsimp only
  split <;> exact ⟨rfl, rfl, rfl, rfl, rfl⟩

theorem boundaryWork_target : (g.boundaryWork q t entry m).target = (g.applyStaged q t).target := by
  cases entry <;> simp [GainRecord.boundaryWork]

theorem boundaryWork_current : (g.boundaryWork q t entry m).current =
    if g.entrySnaps t || g.snap then (g.applyStaged q t).takeSnap.current
    else rampMove q (groupPosition t) (g.applyStaged q t).takeSnap.current (g.applyStaged q t).target := by
  cases entry <;> simp [GainRecord.boundaryWork]

theorem boundaryWork_staged :
    (g.boundaryWork q t entry m).staged = g.staged.filter fun e => !atOrBefore e.boundary t := by
  cases entry <;> simp [GainRecord.boundaryWork, applyStaged_staged]

theorem boundaryWork_snap : (g.boundaryWork q t entry m).snap = false := by
  cases entry <;> simp [GainRecord.boundaryWork]

/-- R147: a set request brings the current gain to the target. -/
theorem boundaryWork_current_of_request (hsnap : g.snap = true) :
    (g.boundaryWork q t entry m).current = (g.boundaryWork q t entry m).target := by
  rw [boundaryWork_target, boundaryWork_current, hsnap, Bool.or_true, if_pos rfl, takeSnap_current, applyStaged_snap,
    if_pos hsnap]

/-- R146: a snap of stage 1 keeps the current gain from the ramp. -/
theorem boundaryWork_current_of_entry (hsnap : g.snap = false) (hentry : g.entrySnaps t = true) :
    (g.boundaryWork q t entry m).current = (g.applyStaged q t).current := by
  rw [boundaryWork_current, hentry, Bool.true_or, if_pos rfl, takeSnap_current, applyStaged_snap, hsnap,
    if_neg Bool.false_ne_true]

/-- R148: where no snap is made the current gain takes the ramp's move toward the target that stage 1 leaves. -/
theorem boundaryWork_current_of_no_snap (hsnap : g.snap = false)
    (hentries : ∀ e ∈ g.staged, atOrBefore e.boundary t = true → e.snap = false) :
    (g.boundaryWork q t entry m).current =
      rampMove q (groupPosition t) g.current (g.boundaryWork q t entry m).target := by
  rw [boundaryWork_target, boundaryWork_current, entrySnaps_eq_false hentries, hsnap, Bool.or_self,
    if_neg Bool.false_ne_true, takeSnap_current, applyStaged_snap, hsnap, if_neg Bool.false_ne_true, applyStaged_current hentries]

end Boundary

/-! ### The steps of the ramp (R148) -/

/-- The table of R148: the positions with the extra step. -/
theorem rampSteps_eq (n : Nat) {position : Nat} (h : position < 4) : rampSteps n position = n / 4 +
    if n % 4 = 1 ∧ position = 3 ∨ n % 4 = 2 ∧ (position = 1 ∨ position = 3) ∨ n % 4 = 3 ∧ position ≠ 0 then 1 else 0 := by
  have hmod : n % 4 < 4 := Nat.mod_lt _ (by decide)
  unfold rampSteps
  generalize n % 4 = k at hmod ⊢
  interval_cases k <;> interval_cases position <;> rfl

/-- Over a group of four blocks the steps add up to the slew. -/
theorem rampSteps_group (n : Nat) : rampSteps n 0 + rampSteps n 1 + rampSteps n 2 + rampSteps n 3 = n := by
  simp only [rampSteps_eq n (show 0 < 4 by decide), rampSteps_eq n (show 1 < 4 by decide),
    rampSteps_eq n (show 2 < 4 by decide), rampSteps_eq n (show 3 < 4 by decide)]
  have hmod : n % 4 < 4 := Nat.mod_lt _ (by decide)
  have hdiv := Nat.div_add_mod n 4
  generalize n % 4 = k at hmod hdiv ⊢
  interval_cases k <;> simp <;> omega

/-! ### The boundary in the words of R146 to R149 -/

section Stated

variable {q : Profile} {t : LinkTime} {entry : Bool} {m : Nat} {g : GainRecord}

/-- R148 and R149: the ramp moves by S div 4 steps and the extra step of the position, and stops at the target. -/
theorem rampMove_eq {extra : Nat → Nat} (hextra : ∀ n, extra n =
      if n % 4 = 1 ∧ t.toNat / 64 % 4 = 3 ∨ n % 4 = 2 ∧ (t.toNat / 64 % 4 = 1 ∨ t.toNat / 64 % 4 = 3) ∨
        n % 4 = 3 ∧ t.toNat / 64 % 4 ≠ 0 then 1 else 0) (current target : Int) :
    rampMove q (groupPosition t) current target =
      if current < target then min target (current + (q.raiseSlew / 4 + extra q.raiseSlew : Nat))
      else if target < current then max target (current - (q.lowerSlew / 4 + extra q.lowerSlew : Nat))
      else current := by
  have hsteps (n : Nat) : rampSteps n (groupPosition t) = n / 4 + extra n := by
    rw [hextra, groupPosition, rampSteps_eq n (Nat.mod_lt _ (by decide))]
  rw [rampMove, hsteps, hsteps]

/-- The last due entry that snaps gives the current gain: no later one moves it, and the ramp does not either. -/
theorem boundaryWork_current_of_last_snap {early later : List Staged} {e : Staged} (hrequest : g.snap = false)
    (hstaged : g.staged = early ++ e :: later) (hdue : atOrBefore e.boundary t = true) (hkind : e.kind ≠ .hold)
    (hsnap : e.snap = true) (hlater : ∀ x ∈ later, atOrBefore x.boundary t = true → x.snap = false) :
    (g.boundaryWork q t entry m).current =
      e.gain.elim ((early.filter fun x => atOrBefore x.boundary t).foldl (GainRecord.applyEntry q) (g.withoutDue t)).target
        (clampGain q.gainMin q.gainMax) := by
  have hmem : e ∈ g.staged := by simp [hstaged]
  rw [boundaryWork_current_of_entry hrequest (entrySnaps_of_mem hmem hdue hsnap), applyStaged_append_cons hstaged hdue,
    foldl_applyEntry_current fun x hx => hlater x (List.mem_filter.mp hx).1 (List.mem_filter.mp hx).2,
    applyEntry_current_of_snap hkind hsnap, applyEntry_target, if_neg hkind]

end Stated

/-- Settles O53: the request, the ramp and the entries that snap on the current gain, the due entries on the target, and the steps of
a group. -/
theorem boundariesMoveTheGains : Obligations.BoundariesMoveTheGains := by
  refine ⟨?_, ?_, rampSteps_group⟩
  · rintro q t entry m g _ extra rfl hextra
    refine ⟨boundaryWork_snap, boundaryWork_current_of_request, fun hrequest hentries => ?_, ?_⟩
    · rw [boundaryWork_current_of_no_snap hrequest hentries, rampMove_eq hextra]
    · intro early e later hrequest hstaged hdue hkind hsnap hlater
      rw [boundaryWork_current_of_last_snap hrequest hstaged hdue hkind hsnap hlater]
      refine ⟨fun v hgain => ?_, fun hgain hearly => ?_, fun hgain hnone => ?_⟩
      · rw [hgain]
        rfl
      · rw [hgain, filter_due_eq_nil hearly]
        rfl
      · rw [boundaryWork_target, applyStaged_of_last_due hstaged hdue hnone, applyEntry_target, if_neg hkind, hgain]
  · rintro q t entry m g _ rfl
    refine ⟨boundaryWork_staged, fun hnone => by rw [boundaryWork_target, applyStaged_target_of_none_due hnone], ?_, ?_⟩
    · intro e rest hstaged hdue hrest
      rw [boundaryWork_target, applyStaged_of_one_due hstaged hdue hrest, applyEntry_target]
      refine ⟨fun hkind => by rw [if_pos hkind]; rfl, fun v hkind hgain => ?_, fun hkind hgain => ?_⟩
      all_goals
        rw [if_neg hkind, hgain]
        rfl
    · intro e1 e2 rest target current hstaged hdue1 hdue2 hrest htarget hcurrent
      have htarget1 : ((g.withoutDue t).applyEntry q e1).target = target := by
        rw [applyEntry_target, htarget]
        cases e1.gain <;> rfl
      have hcurrent1 : ((g.withoutDue t).applyEntry q e1).current = current := by
        rw [applyEntry_current, htarget1, hcurrent]
        rfl
      rw [boundaryWork_target, applyStaged_of_two_due hstaged hdue1 hdue2 hrest, applyEntry_target, htarget1, hcurrent1]
      refine ⟨fun hkind => by rw [if_pos hkind], fun v hkind hgain => ?_, fun hkind hgain => ?_⟩
      all_goals
        rw [if_neg hkind, hgain]
        rfl

end Sys2Proof.Machine
end

/-! ## The peak guard: no MEMBER sample exceeds its ceiling (R17, R150 to R153) -/

section
namespace Sys2Proof.Machine

/-! ### A gained sample under the need (R17, R150, R151) -/

/-- R17: the gained magnitude passes the product by half a step at most. -/
theorem gainedMagnitude_le (m : Nat) (c : Int) : (gainedMagnitude m c : ℝ) ≤ m * (10 : ℝ) ^ ((c : ℝ) / 2000) + 1 / 2 := by
  have hzero : powLE (2 * 0 - 1) (2 * m) 2000 c = true :=
    (powLE_iff _ _ _ (by decide) _).mpr (by simp only [Nat.mul_zero, Nat.zero_sub, Nat.cast_zero]; positivity)
  have hfound := greatestBelow_holds (fun n => powLE (2 * n - 1) (2 * m) 2000 c) 24 0 hzero
  rw [powLE_iff _ _ _ (by decide)] at hfound
  have hsub : (2 * (gainedMagnitude m c : ℝ) - 1) ≤ ((2 * gainedMagnitude m c - 1 : Nat) : ℝ) := by
    have : 2 * gainedMagnitude m c ≤ 2 * gainedMagnitude m c - 1 + 1 := by omega
    have : ((2 * gainedMagnitude m c : Nat) : ℝ) ≤ ((2 * gainedMagnitude m c - 1 + 1 : Nat) : ℝ) := by exact_mod_cast this
    push_cast at this
    linarith
  have hbound := hsub.trans hfound
  push_cast at hbound
  linarith

/-- R17: the limits of a sample can only lower the gained magnitude. -/
theorem gainSample_natAbs_le (x : Sample) (c : Int) : (gainSample x c).toInt.natAbs ≤ gainedMagnitude x.toInt.natAbs c := by
  unfold gainSample fullScale
  generalize gainedMagnitude x.toInt.natAbs c = n
  split
  · rw [BitVec.toInt_ofInt_eq_self (by decide) (by omega) (by omega)]
    omega
  · rw [BitVec.toInt_ofInt_eq_self (by decide) (by omega) (by omega)]
    omega

/-- A magnitude at a gain has at most the level of a greater one. -/
theorem levelAtMost_of_le {m n : Nat} {c k : Int} (hmn : m ≤ n) (h : levelAtMost n c k = true) : levelAtMost m c k = true := by
  rw [levelAtMost, powLE_iff _ _ _ (by decide)] at h ⊢
  exact (Nat.cast_le.mpr hmn).trans h

/-- Where the reduction meets the need, the level of the magnitude weighed is at most the ceiling plus the reduction. -/
theorem levelAtMost_of_guardNeed_le {m r : Nat} {c k : Int} (hm : m ≤ fullScale) (hc : c ≤ 2000) (hneed : guardNeed m c k ≤ r) :
    levelAtMost m c (k + r) = true := by
  unfold guardNeed at hneed
  exact levelAtMost_mono (by omega) (levelAtMost_peakLevel (levelAtMost_200 hm hc))

/-- The level under a reduced gain: a reduction of `r` steps brings a level of `k + r` steps down to `k`. -/
theorem levelAtMost_reduced (m : Nat) (c k : Int) (r : Nat) : levelAtMost m (c - 10 * r) k = levelAtMost m c (k + r) := by
  rw [levelAtMost, levelAtMost]
  congr 1
  ring

/-- A magnitude of full scale or less has at most the level of its gain. -/
theorem levelAtMost_of_gain_le {m : Nat} {c k : Int} (hm : m ≤ fullScale) (hck : c ≤ 10 * k) : levelAtMost m c k = true := by
  rw [levelAtMost, powLE_iff _ _ _ (by decide)]
  have hfactor : (1 : ℝ) ≤ (10 : ℝ) ^ (((10 * k - c : Int) : ℝ) / (2000 : Nat)) :=
    Real.one_le_rpow (by norm_num) (div_nonneg (by exact_mod_cast Int.sub_nonneg.mpr hck) (by norm_num))
  calc (m : ℝ) ≤ fullScale := by exact_mod_cast hm
    _ ≤ fullScale * (10 : ℝ) ^ (((10 * k - c : Int) : ℝ) / (2000 : Nat)) := le_mul_of_one_le_right (by positivity) hfactor

/-- A level compares the product at the gain with the level's own magnitude. -/
theorem gained_le_of_levelAtMost {m : Nat} {c k : Int} (h : levelAtMost m c k = true) :
    (m : ℝ) * (10 : ℝ) ^ ((c : ℝ) / 2000) ≤ 8388608 * (10 : ℝ) ^ ((k : ℝ) / 200) := by
  rw [levelAtMost, powLE_iff _ _ _ (by decide)] at h
  calc (m : ℝ) * (10 : ℝ) ^ ((c : ℝ) / 2000)
      ≤ fullScale * (10 : ℝ) ^ (((10 * k - c : Int) : ℝ) / (2000 : Nat)) * (10 : ℝ) ^ ((c : ℝ) / 2000) := by gcongr
    _ = 8388608 * (10 : ℝ) ^ ((k : ℝ) / 200) := by
      rw [mul_assoc, ← Real.rpow_add (by norm_num), fullScale]
      push_cast
      congr 2
      ring

/-- R151: under the applied gain a magnitude is at the ceiling at most, where the reduction meets the need; the floor of the applied
gain lies 20 dB below every ceiling. -/
theorem levelAtMost_applied {m : Nat} {g : GainRecord} {k : Int} (hm : m ≤ fullScale) (hc : g.current ≤ 2000) (hk : -200 ≤ k)
    (hneed : guardNeed m g.current k ≤ g.reduction) : levelAtMost m g.applied k = true := by
  rw [GainRecord.applied]
  rcases max_choice (-4000) (g.current - 10 * g.reduction) with h | h
  · rw [h]
    exact levelAtMost_of_gain_le hm (by omega)
  · rw [h, levelAtMost_reduced]
    exact levelAtMost_of_guardNeed_le hm hc hneed

/-- R153: a sample whose level under the applied gain is at the ceiling at most goes out under the ceiling. -/
theorem gainSample_underCeiling {x : Sample} {c k : Int} (h : levelAtMost x.toInt.natAbs c k = true) :
    underCeiling (gainSample x c) k :=
  calc ((gainSample x c).toInt.natAbs : ℝ) ≤ gainedMagnitude x.toInt.natAbs c := by exact_mod_cast gainSample_natAbs_le x c
    _ ≤ x.toInt.natAbs * (10 : ℝ) ^ ((c : ℝ) / 2000) + 1 / 2 := gainedMagnitude_le _ c
    _ ≤ 8388608 * (10 : ℝ) ^ ((k : ℝ) / 200) + 1 / 2 := by linarith [gained_le_of_levelAtMost h]

/-! ### The frame check weighs every MEMBER sample of the frame (R150, R152) -/

theorem foldl_max_le_iff (l : List Nat) (a b : Nat) : l.foldl max a ≤ b ↔ a ≤ b ∧ ∀ x ∈ l, x ≤ b := by
  induction l generalizing a with
  | nil => simp
  | cons x l ih => rw [List.foldl_cons, ih, max_le_iff, List.forall_mem_cons, and_assoc]

theorem largestMagnitude_le_iff {s : State} {p : Prog} {frames : List Samples} {b : Nat} :
    s.largestMagnitude p frames ≤ b ↔ ∀ f ∈ frames, ∀ i ∈ s.gainedSlots p, (f[i] : Sample).toInt.natAbs ≤ b := by
  rw [State.largestMagnitude, foldl_max_le_iff]
  simp only [List.mem_flatMap, List.mem_map, forall_exists_index, and_imp, Nat.zero_le, true_and]
  exact ⟨fun h f hf i hi => h _ f hf i hi rfl, fun h _ f hf i hi e => e ▸ h f hf i hi⟩

theorem largestMagnitude_le_fullScale (s : State) (p : Prog) (frames : List Samples) :
    s.largestMagnitude p frames ≤ fullScale :=
  largestMagnitude_le_iff.mpr fun _ _ _ _ => sample_natAbs_le _

theorem mem_gainedSlots_of_member {s : State} {p : Prog} {i : SlotNo} {w : WeightClass} (h : s.slots[i] = .member p w) :
    i ∈ s.gainedSlots p := by
  simp only [State.gainedSlots, allSlots, List.mem_filter, List.mem_finRange, true_and]
  rw [h]
  exact beq_self_eq_true p

theorem frameCheck_gain {s : State} {p : Prog} (ho : s.opened p = true) (f : Samples) : (s.frameCheck f).gains[p] =
    s.gains[p].raiseTo (s.largestMagnitude p [f]) (s.activeProfile p).ceiling := by
  simp [State.frameCheck, ho]

/-- R152 and R153: after the frame check every MEMBER sample of the frame goes out under its programme's ceiling. -/
theorem frameCheck_underCeiling {s : State} {p : Prog} {i : SlotNo} {w : WeightClass} (f : Samples) (ho : s.opened p = true)
    (hmember : s.slots[i] = .member p w) (hc : s.gains[p].current ≤ 2000) (hk : -200 ≤ (s.activeProfile p).ceiling) :
    underCeiling (gainSample f[i] (s.frameCheck f).gains[p].applied) (s.activeProfile p).ceiling := by
  have hweighed : (f[i] : Sample).toInt.natAbs ≤ s.largestMagnitude p [f] :=
    largestMagnitude_le_iff.mp le_rfl f (List.mem_singleton_self f) i (mem_gainedSlots_of_member hmember)
  rw [frameCheck_gain ho]
  exact gainSample_underCeiling (levelAtMost_of_le hweighed
    (levelAtMost_applied (largestMagnitude_le_fullScale s p [f]) hc hk (le_max_right _ _)))

/-! ### The frame sent in RUNNING (R17) -/

theorem sendFrame_samples (s : State) (samples : Samples) : ∃ out, (s.sendFrame samples).sent = some out ∧ out.samples = samples := by
  unfold State.sendFrame
  split <;> exact ⟨_, rfl, rfl⟩

/-- The samples a frame in RUNNING sends: those that leave the delay line, under the gains that the frame check leaves. -/
theorem passFrame_samples {s : State} (hlock : s.rx.lock = .running) (x : Samples) : ∃ out, (s.passFrame x).sent = some out ∧
    out.samples = ((s.carryFrame x).accumulate.frameCheck (s.delay.headD silence)).outSamples (s.delay.headD silence) := by
  obtain ⟨out, hsent, hsamples⟩ := sendFrame_samples ((s.carryFrame x).accumulate.frameCheck (s.delay.headD silence))
    (((s.carryFrame x).accumulate.frameCheck (s.delay.headD silence)).outSamples (s.delay.headD silence))
  refine ⟨out, ?_, hsamples⟩
  unfold State.passFrame
  dsimp only
  simp only [if_pos hlock, State.reportAndArrive_frame, hsent]

theorem outSamples_of_member {s : State} {i : SlotNo} {p : Prog} {w : WeightClass} (hlock : s.rx.lock = .running)
    (hmember : s.slots[i] = .member p w) (leaving : Samples) :
    (s.outSamples leaving)[i] = gainSample leaving[i] s.gains[p].applied := by
  have hslot : (s.outSamples leaving)[i] = s.outSample i leaving[i] := by simp [State.outSamples]
  rw [hslot, State.outSample, hmember]
  exact if_pos hlock

/-- A frame that passes in RUNNING goes out under the ceilings, where the gains and the ceilings are in range. -/
theorem passFrame_underCeiling {s : State} (hlock : s.rx.lock = .running) (x : Samples) : ∃ out, (s.passFrame x).sent = some out ∧
    ∀ (i : SlotNo) (p : Prog) (w : WeightClass), s.slots[i] = .member p w → s.opened p = true → s.gains[p].current ≤ 2000 →
      -200 ≤ (s.activeProfile p).ceiling → underCeiling out.samples[i] (s.activeProfile p).ceiling := by
  obtain ⟨out, hsent, hsamples⟩ := passFrame_samples hlock x
  refine ⟨out, hsent, fun i p w hmember ho hc hk => ?_⟩
  rw [hsamples, outSamples_of_member (p := p) (w := w) (by simpa using hlock) (by simpa using hmember)]
  exact frameCheck_underCeiling (s := (s.carryFrame x).accumulate) _ ho (by simpa using hmember) (by simpa using hc) hk

/-! ### The gains stay in range through an inbound frame (R139, R140, R146, R149) -/

/-- Both gains of a record lie from -40.00 to +20.00 dB (R139). -/
structure GainRecord.InRange (g : GainRecord) : Prop where
  target : -4000 ≤ g.target ∧ g.target ≤ 2000
  current : -4000 ≤ g.current ∧ g.current ≤ 2000

section Record

variable {q : Profile} {g : GainRecord}

theorem Profile.Legal.clampGain_inRange (hq : q.Legal) (v : Int) :
    -4000 ≤ clampGain q.gainMin q.gainMax v ∧ clampGain q.gainMin q.gainMax v ≤ 2000 :=
  have hordered := hq.initialGain.1.trans hq.initialGain.2
  ⟨hq.gainMin.trans (clampGain_ge hordered), (clampGain_le hordered).trans hq.gainMax⟩

theorem GainRecord.InRange.applyEntry (hq : q.Legal) (hg : g.InRange) (e : Staged) : (g.applyEntry q e).InRange := by
  have htarget : -4000 ≤ (g.applyEntry q e).target ∧ (g.applyEntry q e).target ≤ 2000 := by
    rw [applyEntry_target]
    split
    · exact hq.clampGain_inRange _
    · cases e.gain with
      | some v => exact hq.clampGain_inRange v
      | none => exact hg.target
  refine ⟨htarget, ?_⟩
  rw [applyEntry_current]
  split
  · exact htarget
  · exact hg.current

theorem GainRecord.InRange.applyStaged (hq : q.Legal) (hg : g.InRange) (t : LinkTime) : (g.applyStaged q t).InRange := by
  have hfold : ∀ (l : List Staged) (r : GainRecord), r.InRange → (l.foldl (GainRecord.applyEntry q) r).InRange := by
    intro l
    induction l with
    | nil => exact fun _ hr => hr
    | cons e l ih => exact fun r hr => ih _ (hr.applyEntry hq e)
  exact hfold _ _ ⟨hg.target, hg.current⟩

theorem GainRecord.InRange.takeSnap (hg : g.InRange) : g.takeSnap.InRange := by
  refine ⟨by rw [takeSnap_target]; exact hg.target, ?_⟩
  rw [takeSnap_current]
  split
  · exact hg.target
  · exact hg.current

/-- R149: the ramp does not leave the stretch between the current gain and the target. -/
theorem rampMove_between (q : Profile) (position : Nat) (current target : Int) :
    min current target ≤ rampMove q position current target ∧ rampMove q position current target ≤ max current target := by
  unfold rampMove
  split
  · omega
  · split <;> omega

theorem GainRecord.InRange.boundaryWork (hq : q.Legal) (hg : g.InRange) (t : LinkTime) (entry : Bool) (m : Nat) :
    (g.boundaryWork q t entry m).InRange := by
  have hstaged := hg.applyStaged hq t
  refine ⟨by rw [boundaryWork_target]; exact hstaged.target, ?_⟩
  rw [boundaryWork_current]
  split
  · exact hstaged.takeSnap.current
  · have hmove := rampMove_between q (groupPosition t) (g.applyStaged q t).takeSnap.current (g.applyStaged q t).target
    have hcurrent := hstaged.takeSnap.current
    have htarget := hstaged.target
    omega

end Record

/-- Every stored profile is legal and the gains of every programme are in range. -/
structure State.GainsInRange (s : State) : Prop where
  profiles : ∀ q : ProfileNo, s.profiles[q].Legal
  gains : ∀ p : Prog, s.gains[p].InRange

theorem State.GainsKept.gainsInRange {s : State} (h : s.GainsKept) : s.GainsInRange :=
  ⟨h.profiles, fun p => ⟨h.target p, h.current p⟩⟩

namespace State.GainsInRange

variable {s t : State}

theorem congr (h : s.GainsInRange) (hprofiles : t.profiles = s.profiles) (hgains : t.gains = s.gains) : t.GainsInRange :=
  ⟨fun q => by rw [hprofiles]; exact h.profiles q, fun p => by rw [hgains]; exact h.gains p⟩

theorem activeProfile (h : s.GainsInRange) (p : Prog) : (s.activeProfile p).Legal := h.profiles _

theorem setGain (h : s.GainsInRange) (p : Prog) {g : GainRecord} (hg : g.InRange) : (s.setGain p g).GainsInRange := by
  refine ⟨h.profiles, fun r => ?_⟩
  simp only [State.setGain_gains, Fin.getElem_fin, Vector.getElem_set]
  split
  · exact hg
  · exact h.gains r

/-! What the claims of a completion do (R140 to R142). -/

theorem setTarget (h : s.GainsInRange) (p : Prog) (g : Int) : (s.setTarget p g).GainsInRange := by
  by_cases ho : s.progs[p].state = .unused
  · exact h.congr rfl (by rw [State.setTarget_gains, opened_eq_false ho, if_neg Bool.false_ne_true])
  · rw [setTarget_of_opened ho]
    exact h.setGain p ⟨(h.activeProfile p).clampGain_inRange g, (h.gains p).current⟩

theorem setProfile (h : s.GainsInRange) (p : Prog) (q : ProfileNo) : (s.setProfile p q).GainsInRange :=
  setTarget (s := s.setProg p _) (h.congr rfl rfl) p _

theorem stage (h : s.GainsInRange) (e : Cue) (gain : Option Int) (snap : Bool) : (s.stage e gain snap).GainsInRange := by
  unfold State.stage
  split
  · exact h.setGain e.prog ⟨(h.gains e.prog).target, (h.gains e.prog).current⟩
  · exact h.congr rfl rfl

theorem skipCue (h : s.GainsInRange) (p : Prog) : (s.skipCue p).GainsInRange := h.congr rfl rfl

theorem profilePart (h : s.GainsInRange) (e : Cue) : (s.profilePart e).GainsInRange := by
  unfold State.profilePart
  split
  · exact h.setProfile _ _
  · exact h

/-! What each operation does at its completion (R102, R106, R107, R129). -/

theorem completeAutomatic (h : s.GainsInRange) (f : InFlight) : (completeAutomatic f s).GainsInRange := by
  unfold Machine.completeAutomatic
  split
  · exact h.congr (by simp) (by simp)
  · split
    · exact h
    · split
      · exact h.setTarget _ _
      · exact h

theorem completeSegment (h : s.GainsInRange) (e : Cue) (snap : Snapshot) : (completeSegment e snap s).GainsInRange := by
  have hpart := h.profilePart e
  unfold Machine.completeSegment
  cases s.progs[e.prog].state with
  | unused => exact h
  | dormant | held | tracking =>
    dsimp only
    split
    · exact hpart.stage _ _ _
    · exact hpart
  | overridden =>
    dsimp only
    split
    · exact hpart.skipCue _
    · exact hpart

theorem completeSwitch (h : s.GainsInRange) (e : Cue) (snap : Snapshot) : (completeSwitch e snap s).GainsInRange := by
  have hpart := h.profilePart e
  unfold Machine.completeSwitch
  cases s.progs[e.prog].state with
  | unused => exact h
  | dormant | held => exact hpart
  | tracking =>
    dsimp only
    split
    · exact hpart.stage _ _ _
    · exact hpart
  | overridden => exact hpart.skipCue _

theorem completeHold (h : s.GainsInRange) (e : Cue) : (completeHold e s).GainsInRange := by
  unfold Machine.completeHold
  cases s.progs[e.prog].state with
  | unused => exact h
  | dormant | tracking | held => exact stage (s := s.moveTo e.prog .held) (h.congr rfl rfl) e none false
  | overridden => exact h.skipCue _

theorem completeRelease (h : s.GainsInRange) (e : Cue) : (completeRelease e s).GainsInRange := by
  unfold Machine.completeRelease
  cases s.progs[e.prog].state with
  | unused => exact h
  | held => exact h.congr rfl rfl
  | dormant | tracking | overridden => exact h.skipCue _

theorem completePreset (h : s.GainsInRange) (e : Cue) : (completePreset e s).GainsInRange := by
  unfold Machine.completePreset
  cases s.progs[e.prog].state with
  | unused => exact h
  | dormant | tracking | held => exact h.stage e e.gain e.snap
  | overridden => exact h.skipCue _

theorem completeCue (h : s.GainsInRange) (e : Cue) (f : InFlight) : (completeCue e f s).GainsInRange := by
  unfold Machine.completeCue
  cases e.kind with
  | segment => exact h.completeSegment e f.snap
  | switch => exact h.completeSwitch e f.snap
  | hold => exact h.completeHold e
  | release => exact h.completeRelease e
  | preset => exact h.completePreset e

theorem forced (h : s.GainsInRange) (p : Prog) (gain : Int) (snap : Bool) : (s.forced p gain snap).GainsInRange :=
  congr (h.setGain p (g := { s.gains[p].forced snap with
      target := clampGain (s.activeProfile p).gainMin (s.activeProfile p).gainMax gain })
    ⟨(h.activeProfile p).clampGain_inRange gain, (h.gains p).current⟩) rfl rfl

theorem completeDirective (h : s.GainsInRange) (d : DirectiveOp) (r : Reply) (f : InFlight) :
    (completeDirective d r f s).GainsInRange := by
  cases d with
  | exchange expected new =>
    dsimp only [Machine.completeDirective, completeExchange]
    split
    · exact h.congr rfl rfl
    · split
      · exact congr (h.setProfile f.prog new) rfl rfl
      · exact h.congr rfl rfl
  | force gain snap =>
    dsimp only [Machine.completeDirective]
    by_cases ho : s.progs[f.prog].state = .unused
    · rw [completeForce_of_unused ho]
      exact h.congr rfl rfl
    · rw [completeForce_of_opened ho]
      exact congr (h.forced f.prog gain snap) rfl rfl
  | release =>
    dsimp only [Machine.completeDirective, completeGainRelease]
    split <;> exact h.congr rfl rfl

theorem operationEffects (h : s.GainsInRange) (f : InFlight) : (operationEffects f s).GainsInRange := by
  unfold Machine.operationEffects
  cases f.op with
  | retune | rescale => exact h.completeAutomatic f
  | cue e => exact h.completeCue e f
  | directive d r => exact h.completeDirective d r f
  | probe q r => exact h.congr (by simp) (by simp)

theorem completeOperation (h : s.GainsInRange) : s.completeOperation.GainsInRange := by
  refine onEngine_cases (P := State.GainsInRange) h fun f _ _ => ?_
  unfold State.finish
  split
  · exact h.congr (by simp) (by simp)
  · exact congr (h.operationEffects f) rfl rfl

/-! What the start of a superframe and a header check do (R7, R8, R13, R144, R156). -/

theorem settleBeforeBoundary (h : s.GainsInRange) : s.settleBeforeBoundary.GainsInRange := by
  have hwindows : s.settleWindows.GainsInRange := h.congr (by simp) (by simp)
  unfold State.settleBeforeBoundary
  dsimp only
  split
  · split
    · exact hwindows.completeOperation
    · exact hwindows
  · exact hwindows

theorem gainBoundary (h : s.GainsInRange) (time : LinkTime) (entry : Bool) : (s.gainBoundary time entry).GainsInRange := by
  refine ⟨fun q => by simpa using h.profiles q, fun p => ?_⟩
  have hrecord : (s.gainBoundary time entry).gains[p] = s.gainAfterBoundary time entry p := by
    simp [State.gainBoundary]
  rw [hrecord, State.gainAfterBoundary]
  split
  · exact (h.gains p).boundaryWork (h.activeProfile p) time entry _
  · exact h.gains p

theorem boundaryWork (h : s.GainsInRange) (time : LinkTime) (entry : Bool) : (s.boundaryWork time entry).GainsInRange := by
  unfold State.boundaryWork
  dsimp only
  split
  · exact gainBoundary (h.congr (by simp) (by simp)) time entry
  · exact h.congr (by simp) (by simp)

theorem startSuperframe (h : s.GainsInRange) (w : ServiceWord) : (s.startSuperframe w).GainsInRange := by
  have hstart : (s.atStart w).GainsInRange := by
    unfold State.atStart
    split
    · exact congr h.settleBeforeBoundary rfl rfl
    · exact h.congr rfl rfl
  refine startSuperframe_cases (P := State.GainsInRange) (fun _ => hstart.congr rfl rfl) fun u entry o _ hu => ?_
  have hbegun : u.GainsInRange := by
    rcases hu with rfl | rfl
    · exact hstart
    · exact hstart.congr rfl rfl
  exact congr (hbegun.boundaryWork _ entry) rfl rfl

theorem gainDeparture (h : s.GainsInRange) : s.gainDeparture.GainsInRange := by
  refine ⟨by simpa using h.profiles, fun p => ?_⟩
  simp only [State.gainDeparture, State.setGains_gains, Fin.getElem_fin, Vector.getElem_ofFn]
  split
  · exact ⟨(h.gains p).target, (h.gains p).current⟩
  · exact h.gains p

theorem loseLock (h : s.GainsInRange) : s.loseLock.GainsInRange := by
  unfold State.loseLock
  dsimp only
  split
  · have hdeparture : s.meterDeparture.gainDeparture.GainsInRange := gainDeparture (h.congr (by simp) (by simp))
    exact hdeparture.congr (by simp) (by simp)
  · exact h.congr rfl rfl

theorem headerError (h : s.GainsInRange) : s.headerError.GainsInRange := by
  unfold State.headerError
  dsimp only
  split
  · exact loseLock (h.congr rfl rfl)
  · exact h.congr rfl rfl

theorem takeOwedTimeout (h : s.GainsInRange) : s.takeOwedTimeout.GainsInRange := by
  unfold State.takeOwedTimeout
  split
  · unfold State.takeTimeout
    cases s.rx.lock with
    | search => exact h
    | confirm => exact h.congr rfl rfl
    | settling | running => exact headerError (h.congr rfl rfl)
  · exact h

theorem checkHeader (h : s.GainsInRange) (w0 w1 : ServiceWord) : (s.checkHeader w0 w1).GainsInRange := by
  unfold State.checkHeader
  dsimp only
  split
  · exact h.congr rfl rfl
  · split
    · exact h.congr (by simp) (by simp)
    · exact headerError (h.congr rfl rfl)

end State.GainsInRange

/-! ### What a frame after which the part is RUNNING has done -/

/-- A frame in SEARCH ends in SEARCH or CONFIRM (R3). -/
theorem searchFrame_not_running {s : State} (h : s.rx.lock = .search) (f : Frame) : (s.searchFrame f).rx.lock ≠ .running := by
  have hexamined : ∀ w, (s.examineFrame w).rx.lock ≠ .running := fun w => by simp [State.examineFrame, h]
  unfold State.searchFrame
  split
  · split
    · simp [State.enterConfirm]
    · exact hexamined _
  · exact hexamined _

/-- A frame in CONFIRM ends in CONFIRM, SETTLING or SEARCH (R4, R5). -/
theorem confirmFrame_not_running {s : State} (h : s.rx.lock = .confirm) (f : Frame) : (s.confirmFrame f).rx.lock ≠ .running := by
  unfold State.confirmFrame
  split
  · simp [h]
  · split
    · unfold State.secondHeader
      (repeat' split) <;> simp
    · simp [h]

/-- The state `t` is what the frame `f` leaves that has passed through the part in RUNNING, with the gains in range. -/
def State.PassedInRunning (t : State) (f : Frame) : Prop :=
  ∃ u : State, t = u.passFrame f.samples ∧ u.rx.lock = .running ∧ u.GainsInRange

theorem State.GainsInRange.passedInRunning {u : State} (h : u.GainsInRange) (f : Frame)
    (hrunning : (u.passFrame f.samples).rx.lock = .running) : (u.passFrame f.samples).PassedInRunning f :=
  ⟨u, rfl, by simpa using hrunning, h⟩

/-- A frame after which the part is RUNNING has passed through the part in RUNNING, the gains then in range as before it. -/
theorem frameArrives_passedInRunning {s : State} {f : Frame} (h : s.GainsInRange) :
    (s.frameArrives f).rx.lock = .running → (s.frameArrives f).PassedInRunning f := by
  have hheard : (s.takeOwedTimeout.setRx s.takeOwedTimeout.rx.heard).GainsInRange := h.takeOwedTimeout.congr rfl rfl
  refine frameArrives_cases (P := fun t => t.rx.lock = .running → t.PassedInRunning f) (fun hlock hrunning => ?_)
    (fun hlock hrunning => ?_) (fun _ => ?_)
  · exact absurd hrunning (searchFrame_not_running (by simpa using hlock) f)
  · exact absurd hrunning (confirmFrame_not_running (by simpa using hlock) f)
  · refine heldFrame_cases (P := fun t => t.rx.lock = .running → t.PassedInRunning f) (fun _ => ?_)
      (fun w0 _ hlost hrunning => ?_) (fun w0 _ _ => ?_) (fun _ _ => ?_)
    · exact (hheard.startSuperframe f.service).passedInRunning f
    · simp [hlost] at hrunning
    · exact (hheard.checkHeader w0 f.service).passedInRunning f
    · refine State.GainsInRange.passedInRunning ?_ f
      exact hheard.congr rfl rfl

/-- A MEMBER slot belongs to a programme that is not UNUSED (R27). -/
theorem State.SlotsKept.opened_of_member {s : State} (h : s.SlotsKept) {i : SlotNo} {p : Prog} {w : WeightClass}
    (hmember : s.slots[i] = .member p w) : s.opened p = true := by
  have hmem : i ∈ s.members p := by
    simp only [State.members, allSlots, List.mem_filter, List.mem_finRange, true_and, hmember]
    exact beq_self_eq_true (some p)
  by_contra hclosed
  rw [h.closedHasNone p (by simpa using hclosed)] at hmem
  exact absurd hmem (List.not_mem_nil)

/-- Settles O55: the frame has passed through the part in RUNNING, where the frame check brings the reduction to the need of every
MEMBER sample that leaves, whatever the claims and boundary before it have made of the gains. -/
theorem noMemberSampleExceedsItsCeiling : Obligations.NoMemberSampleExceedsItsCeiling := by
  intro s t f hgains hslots hexec hrunning
  have hopened (p : Prog) : s.opened p = true → t.opened p = true := exec_opened hexec (by simp) (by simp) (by simp) p
  cases hexec
  have hslotsKept : (s.frameArrives f).slots = s.slots := by simp
  obtain ⟨u, hpassed, hlock, hinRange⟩ := frameArrives_passedInRunning hgains.gainsInRange hrunning
  obtain ⟨out, hsent, hunder⟩ := passFrame_underCeiling hlock f.samples
  rw [hpassed] at hopened hslotsKept ⊢
  refine ⟨out, hsent, fun i p w hmember => ?_⟩
  have ho : u.opened p = true := by
    simpa [State.opened] using hopened p (hslots.opened_of_member (hslotsKept ▸ hmember))
  have hprofile : (u.passFrame f.samples).activeProfile p = u.activeProfile p := by simp [State.activeProfile]
  rw [hprofile]
  exact hunder i p w (by simpa using hmember) ho (hinRange.gains p).current.2 (hinRange.activeProfile p).ceiling.1

end Sys2Proof.Machine
end

/-! ## Management cells: IDENT (R179) -/

section
namespace Sys2Proof.Machine

/-- IDENT with its request in hand is the DONE answer of the identity and state, in every lock state (R179). -/
theorem exec_ident_of_holds {s : State} {c : Cell} (h : s.holds 0x01 c) :
    exec .ident s = .next (s.answer c .done s.identPayload) :=
  congrArg Host.Outcome.next (onRequest_of_holds h fun c s => s.answer c .done s.identPayload)

/-- R22: the link address is 0x40 plus the value of the address straps. -/
theorem State.address_eq (s : State) : s.address = 0x40 + s.straps.address.setWidth 8 := rfl

/-- The layout of section 8.12: the address is that of the straps (R22), and the ten flags fill the low bits of their word. -/
theorem State.identPayload_eq (s : State) :
    s.identPayload = [0x4E, 0x4C, 0x34, 0x31, 0x32, 1, 0x40 + s.straps.address.setWidth 8, s.rx.lock.code,
      s.straps.settle.setWidth 8] ++ bytes16 (s.notice.flags.setWidth 16) ++ bytes32 s.currentTime := by
  rw [State.identPayload, State.address_eq, NoticeUnit.word]

/-- Settles O8: the request in hand makes the row its handler, whose answer is the only change and whose payload is the layout of
section 8.12. -/
theorem identReturnsThePartsState : Obligations.IdentReturnsThePartsState := by
  intro s c h
  rw [exec_ident_of_holds h, State.identPayload_eq]

end Sys2Proof.Machine
end

/-! ## Conditions: what a claim does (R184 to R186) -/

section
namespace Sys2Proof.Machine

/-- R185: a claim of a clear flag is a trigger by the level of its condition alone, or by its enable and the mask. -/
theorem NoticeUnit.triggers_iff {n : NoticeUnit} {k : Condition} :
    n.triggers k = true ↔ k.level = 7 ∨ (n.enable.getLsbD k.bit = true ∧ n.mask < k.level) := by
  rw [NoticeUnit.triggers, Bool.or_eq_true, Bool.and_eq_true, decide_eq_true_eq, decide_eq_true_eq]

/-- The table of section 9.1, condition by condition. -/
theorem conditions_bits_levels :
    [Condition.linkLost, .restarted, .timeSlip, .cueLate, .cueWarn, .cueSkipped, .presence, .guardPressure, .cellLoss,
      .swapDone].map (fun k => (k.bit, k.level)) =
      [(0, 7), (1, 6), (2, 5), (3, 4), (4, 4), (5, 3), (6, 3), (7, 3), (8, 2), (9, 1)] := rfl

theorem NoticeUnit.claim_of_set {n : NoticeUnit} {k : Condition} (h : n.flags.getLsbD k.bit = true) : n.claim k = n :=
  if_pos h

theorem NoticeUnit.claim_of_clear {n : NoticeUnit} {k : Condition} (h : n.flags.getLsbD k.bit = false) :
    n.claim k = { n with
      flags := n.flags ||| BitVec.twoPow 10 k.bit
      state := if k.level = 7 ∨ (n.enable.getLsbD k.bit = true ∧ n.mask < k.level) then n.state.trigger else n.state } := by
  rw [NoticeUnit.claim, if_neg (Bool.eq_false_iff.mp h)]
  simp only [NoticeUnit.triggers_iff]

/-- A claim acts on the Notice Unit alone. -/
theorem State.claim_eq (s : State) (k : Condition) : s.claim k = { s with notice := s.notice.claim k } := rfl

/-- Settles O13: the table of section 9.1, and the claim of a set flag and of a clear one. -/
theorem aClaimSetsItsFlag : Obligations.AClaimSetsItsFlag := by
  refine ⟨conditions_bits_levels, fun s k => ⟨fun hset => ?_, fun hclear => ?_⟩⟩
  · rw [State.claim_eq, NoticeUnit.claim_of_set hset]
  · rw [State.claim_eq, NoticeUnit.claim_of_clear hclear]
    rfl

end Sys2Proof.Machine
end

/-! ## Notices: CONDITIONS_READ, CONDITIONS_CLEAR and NOTICE_SET (R188, R189) -/

section
namespace Sys2Proof.Machine

/-! ### Operands that the payload is too short for (R171) -/

theorem operand_eq_none_iff {c : Cell} {i : Nat} : Cell.operand c i = none ↔ Cell.payloadLength c ≤ i := by
  simp [Cell.operand]

theorem operand16_eq_none {c : Cell} {i : Nat} (h : Cell.operand c (i + 1) = none) : Cell.operand16 c i = none := by
  rw [Cell.operand16, h]
  cases Cell.operand c i <;> rfl

/-! ### CONDITIONS_READ and CONDITIONS_CLEAR (R188) -/

/-- CONDITIONS_READ with its request in hand is the DONE answer of the ten flags in the low bits of their word. -/
theorem exec_conditionsRead_of_holds {s : State} {c : Cell} (h : s.holds 0x12 c) :
    exec .conditionsRead s = .next (s.answer c .done (bytes16 (s.notice.flags.setWidth 16))) :=
  congrArg Host.Outcome.next (onRequest_of_holds h fun c s => s.answer c .done (bytes16 s.notice.word))

/-- CONDITIONS_CLEAR with its request in hand is its handler. -/
theorem exec_conditionsClear_of_holds {s : State} {c : Cell} (h : s.holds 0x13 c) :
    exec .conditionsClear s = .next (clearConditions c s) :=
  congrArg Host.Outcome.next (onRequest_of_holds h clearConditions)

section Answers

variable {s : State} {c : Cell} {mask destination level : Byte} {enable : BitVec 16}

theorem clearConditions_of_set {set : BitVec 16} (hset : Cell.operand16 c 0 = some set) : clearConditions c s =
    (s.setNotice { s.notice with flags := s.notice.flags &&& ~~~set.setWidth 10 }).answer c .done [] := by
  rw [clearConditions, hset]

theorem clearConditions_short (h : Cell.payloadLength c < 2) : clearConditions c s = s.answer c .badValue [] := by
  have hlow : Cell.operand c 1 = none := operand_eq_none_iff.mpr (Nat.le_of_lt_succ h)
  rw [clearConditions, operand16_eq_none hlow]

/-! ### NOTICE_SET (R189) -/

/-- NOTICE_SET with its request in hand is its handler. -/
theorem exec_noticeSet_of_holds (h : s.holds 0x14 c) : exec .noticeSet s = .next (setNotice c s) :=
  congrArg Host.Outcome.next (onRequest_of_holds h setNotice)

/-- A payload below 5 bytes ends before the cue warning level, whatever the operands before it are. -/
theorem setNotice_short (h : Cell.payloadLength c < 5) : setNotice c s = s.answer c .badValue [] := by
  have hlevel : Cell.operand c 4 = none := operand_eq_none_iff.mpr (Nat.le_of_lt_succ h)
  rw [setNotice]
  split
  next hsome => exact absurd (hlevel.symm.trans hsome) nofun
  next => rfl

/-- The operands that NOTICE_SET refuses (R189): a mask level above 7, destination 0, and a warning level outside 1 to 32. -/
abbrev NoticeOperandsBad (mask destination level : Byte) : Prop :=
  7 < mask.toNat ∨ destination = 0 ∨ level = 0 ∨ 32 < level.toNat

/-- A request that carries all four operands: refused with nothing changed, or the four values replaced together. -/
theorem setNotice_of_operands (hmask : Cell.operand c 0 = some mask) (henable : Cell.operand16 c 1 = some enable)
    (hdestination : Cell.operand c 3 = some destination) (hlevel : Cell.operand c 4 = some level) : setNotice c s =
      if NoticeOperandsBad mask destination level then s.answer c .badValue []
      else (s.setNotice { s.notice with
        mask := mask.toNat, enable := enable.setWidth 10, destination := destination, warnLevel := level.toNat }).answer c
          .done [] := by
  rw [setNotice, hmask, henable, hdestination, hlevel]

end Answers

/-- Settles O12: CONDITIONS_READ; CONDITIONS_CLEAR with its set and without; NOTICE_SET with a short payload, with a bad operand,
and with four good ones. -/
theorem conditionAndNoticeRequests : Obligations.ConditionAndNoticeRequests := by
  refine ⟨⟨fun s c h => exec_conditionsRead_of_holds h, fun s c set h hset => ?_, fun s c h hshort => ?_⟩,
    fun s c h => ⟨fun hshort => ?_, fun mask enable destination level hmask henable hdestination hlevel =>
      ⟨fun hbad => ?_, fun hmaskRange hstation hlevelLow hlevelHigh => ?_⟩⟩⟩
  · rw [exec_conditionsClear_of_holds h, clearConditions_of_set hset]
    rfl
  · rw [exec_conditionsClear_of_holds h, clearConditions_short hshort]
  · rw [exec_noticeSet_of_holds h, setNotice_short hshort]
  · rw [exec_noticeSet_of_holds h, setNotice_of_operands hmask henable hdestination hlevel, if_pos hbad]
  · have hgood : ¬NoticeOperandsBad mask destination level := by
      rintro (hmaskBad | hnoStation | hlevelZero | hlevelBad)
      · exact Nat.not_lt.mpr hmaskRange hmaskBad
      · exact hstation hnoStation
      · exact hlevelLow hlevelZero
      · exact Nat.not_lt.mpr hlevelHigh hlevelBad
    rw [exec_noticeSet_of_holds h, setNotice_of_operands hmask henable hdestination hlevel, if_neg hgood]
    rfl

end Sys2Proof.Machine
end

/-! ## What every command keeps: the request rows, the pieces of a frame's work, and the induction over both -/

section
namespace Sys2Proof.Machine

/-! ### The request rows of the table (R171, section 8.11) -/

/-- The request rows: each command with its kind code and its handler. -/
inductive IsRequest : Instr → Nat → (Cell → State → State) → Prop
  | ident : IsRequest .ident 0x01 fun c s => s.answer c .done s.identPayload
  | read : IsRequest .read 0x02 readTable
  | profileWrite : IsRequest .profileWrite 0x03 writeProfile
  | lawLoad : IsRequest .lawLoad 0x04 loadLaw
  | lawSwap : IsRequest .lawSwap 0x05 swapLaws
  | slotMap : IsRequest .slotMap 0x06 mapRequest
  | openProgramme : IsRequest .openProgramme 0x07 openRequest
  | closeProgramme : IsRequest .closeProgramme 0x08 closeRequest
  | cuePost : IsRequest .cuePost 0x09 postCue
  | cueWithdraw : IsRequest .cueWithdraw 0x0A withdrawCue
  | profileExchange : IsRequest .profileExchange 0x0B requestExchange
  | gainForce : IsRequest .gainForce 0x0C requestForce
  | gainRelease : IsRequest .gainRelease 0x0D requestRelease
  | probe : IsRequest .probe 0x0E requestProbe
  | presenceRead : IsRequest .presenceRead 0x0F readPresence
  | segmentReset : IsRequest .segmentReset 0x10 resetSegment
  | participate : IsRequest .participate 0x11 setParticipation
  | conditionsRead : IsRequest .conditionsRead 0x12 fun c s => s.answer c .done (bytes16 s.notice.word)
  | conditionsClear : IsRequest .conditionsClear 0x13 clearConditions
  | noticeSet : IsRequest .noticeSet 0x14 setNotice
  | restart : IsRequest .restart 0x15 restartPart

theorem exec_request {i : Instr} {code : Nat} {handle : Cell → State → State} (h : IsRequest i code handle) (s : State) :
    exec i s = .next (onRequest code handle s) := by
  cases h <;> rfl

/-- A request row with its request in hand is its handler. -/
theorem exec_request_of_holds {i : Instr} {code : Nat} {handle : Cell → State → State} (hrow : IsRequest i code handle)
    {s : State} {c : Cell} (h : s.holds code c) : exec i s = .next (handle c s) := by
  rw [exec_request hrow, onRequest_of_holds h]

/-! ### The commands -/

/-- What the command `i` can do, told as what a property `P` of the state after it has to be shown for. -/
structure CommandCases (P : State → Prop) (i : Instr) (s : State) : Prop where
  unchanged : P s
  pinReset : ∀ x, i = .pinReset x → P { State.afterReset x with fresh := s.fresh, pending := s.pending }
  frame : ∀ f, P (s.frameArrives f)
  windows : P s.settleWindows
  period : P s.takeOwedTimeout.onePeriod
  missing : P (missFrames s)
  take : P (takeRequest s)
  refused : ∀ c st, s.cells.inHand = some c → P (s.answer c st [])
  request : ∀ i code handle c, IsRequest i code handle → s.holds code c → P (handle c s)
  grant : s.engine = none → P s.grantNext
  finish : ∀ f, s.engine = some f → P (s.finish f operationEffects)

/-- Every command answers a next state, and one that `CommandCases` tells of. -/
theorem exec_next {P : State → Prop} {i : Instr} {s : State} (H : CommandCases P i s) : ∃ t, exec i s = .next t ∧ P t := by
  have hrequest {code handle} (hrow : IsRequest i code handle) : ∃ t, exec i s = .next t ∧ P t :=
    ⟨_, exec_request hrow s, onRequest_cases H.unchanged (fun c hc => H.refused c _ hc) fun c hc => H.request i _ _ c hrow hc⟩
  have hengine (kind : Operation → Bool) : P (onEngine kind operationEffects s) :=
    onEngine_cases H.unchanged fun f hf _ => H.finish f hf
  cases i
  case pinReset x => exact ⟨_, rfl, H.pinReset x rfl⟩
  case inboundFrame f => exact ⟨_, rfl, H.frame f⟩
  case windowCompletion => exact ⟨_, rfl, H.windows⟩
  case referenceFramePeriod => exact ⟨_, rfl, H.period⟩
  case missingFrameTimeout => exact ⟨_, rfl, H.missing⟩
  case requestTake => exact ⟨_, rfl, H.take⟩
  case unknownRequest =>
    refine ⟨_, rfl, ?_⟩
    unfold answerUnknown
    split
    · next c hc =>
      split
      · exact H.unchanged
      · exact H.refused c _ hc
    · exact H.unchanged
  case grant =>
    refine ⟨_, rfl, ?_⟩
    split
    · next hidle => exact H.grant (Option.isNone_iff_eq_none.mp hidle)
    · exact H.unchanged
  case retuneCompletion => exact ⟨_, rfl, hengine _⟩
  case rescaleCompletion => exact ⟨_, rfl, hengine _⟩
  case cueCompletion => exact ⟨_, rfl, hengine _⟩
  case profileExchangeCompletion => exact ⟨_, rfl, hengine _⟩
  case gainForceCompletion => exact ⟨_, rfl, hengine _⟩
  case gainReleaseCompletion => exact ⟨_, rfl, hengine _⟩
  case probeCompletion => exact ⟨_, rfl, hengine _⟩
  all_goals exact hrequest (by constructor)

/-- What is shown of each thing a command can do holds after the command. -/
theorem exec_cases {P : State → Prop} {i : Instr} {s t : State} (H : CommandCases P i s) (e : exec i s = .next t) : P t := by
  obtain ⟨u, hu, hP⟩ := exec_next H
  rw [e] at hu
  cases hu
  exact hP

/-- What every command keeps, whatever the queue of waiting commands, every step keeps. -/
theorem step_keeps {P : State → Prop} (hqueue : ∀ s queue, P s → P (s.withPending queue))
    (hexec : ∀ i s t, exec i s = .next t → P s → P t) {s t : State} (e : step s = .next t) (h : P s) : P t := by
  obtain rfl | ⟨c, rest, -, he⟩ := step_next_cases e
  · exact h
  · exact hexec c _ t he (hqueue s rest h)

/-! ### The pieces of a frame's work -/

/-- `t` differs from `s` in the link side, the notice, the counter of free values and the queue of waiting commands alone. -/
def State.SameButLink (s t : State) : Prop :=
  t = { s with rx := t.rx, tx := t.tx, sent := t.sent, delay := t.delay, filterInput := t.filterInput, notice := t.notice,
               fresh := t.fresh, pending := t.pending }

/-- A property of the state that the link side plays no part in, and that each piece of a frame's work keeps. -/
structure KeptByFrames (P : State → Prop) : Prop where
  link : ∀ {s t}, s.SameButLink t → P s → P t
  countError : ∀ {s} n, P s → P (s.setCells { s.cells with headerErrors := n })
  arrive : ∀ {s} c, P s → P (s.arriveCell c)
  report : ∀ {s} source, P s → P (s.sentReport source)
  windows : ∀ {s}, P s → P s.settleWindows
  finish : ∀ {s} f, s.engine = some f → P s → P (s.finish f operationEffects)
  swap : ∀ {s}, P s → P s.swapBoundary
  count : ∀ {s}, (∀ f, s.engine = some f → f.boundaries = 0) → P s → P s.countBoundary
  due : ∀ {s} t, P s → P (s.dueCheck t)
  meter : ∀ {s} starts entry, P s → P (s.meterBoundary starts entry)
  meterSettling : ∀ {s}, P s → P s.meterSettling
  gain : ∀ {s} t entry, P s → P (s.gainBoundary t entry)
  accumulate : ∀ {s}, P s → P s.accumulate
  check : ∀ {s} x, P s → P (s.frameCheck x)
  meterDeparture : ∀ {s}, P s → P s.meterDeparture
  gainDeparture : ∀ {s}, P s → P s.gainDeparture

/-- The operation in flight, once what must happen before a boundary has happened, has seen no boundary (R97). -/
theorem settleBeforeBoundary_boundaries (s : State) (f : InFlight) (hf : s.settleBeforeBoundary.engine = some f) :
    f.boundaries = 0 := by
  unfold State.settleBeforeBoundary at hf
  dsimp only at hf
  split at hf
  · next g hg =>
    split at hf
    · rw [State.completeOperation, onEngine_of hg rfl] at hf
      cases hf
    · next hseen =>
      rw [hg] at hf
      cases hf
      omega
  · next hidle => rw [hidle] at hf; cases hf

namespace KeptByFrames

variable {P : State → Prop} (H : KeptByFrames P) {s : State}
include H

theorem setRx (h : P s) (r : Receiver) : P (s.setRx r) := H.link rfl h

theorem loseLock (h : P s) : P s.loseLock := by
  have hdeparted : P (if s.rx.lock = .running then s.meterDeparture.gainDeparture else s) := by
    split
    · exact H.gainDeparture (H.meterDeparture h)
    · exact h
  exact H.link (s := if s.rx.lock = .running then s.meterDeparture.gainDeparture else s) rfl hdeparted

theorem headerError (h : P s) : P s.headerError := by
  have hcounted : P ((s.setRx s.rx.takeError).setCells { s.cells with headerErrors := countUp s.cells.headerErrors }) :=
    H.countError _ (H.setRx h _)
  unfold State.headerError
  dsimp only
  split
  · exact H.loseLock hcounted
  · exact hcounted

theorem takeTimeout (h : P s) : P s.takeTimeout := by
  unfold State.takeTimeout
  cases s.rx.lock with
  | search => exact h
  | confirm => exact H.setRx h _
  | settling | running => exact H.headerError (H.setRx h _)

theorem takeOwedTimeout (h : P s) : P s.takeOwedTimeout := by
  unfold State.takeOwedTimeout
  split
  · exact H.takeTimeout h
  · exact h

theorem sendFrame (h : P s) (x : Samples) : P (s.sendFrame x) := by
  unfold State.sendFrame
  split <;> exact H.link rfl h

theorem sendSilence (h : P s) : P s.sendSilence := by
  have hstarted : P (if s.outboundInProgress then s else s.startOutbound s.nextLocalTime) := by
    split
    · exact h
    · exact H.link rfl h
  unfold State.sendSilence
  dsimp only
  split
  · exact H.report _ (H.sendFrame hstarted _)
  · exact H.sendFrame hstarted _

theorem onePeriod (h : P s) : P s.onePeriod := by
  unfold State.onePeriod
  cases s.rx.lock with
  | search => exact H.sendSilence h
  | confirm => exact H.sendSilence (H.setRx h _)
  | settling | running => exact H.setRx h _

theorem passPeriods (n : Nat) (h : P s) : P (s.passPeriods n) := by
  induction n generalizing s with
  | zero => exact h
  | succ n ih => exact ih (H.onePeriod h)

theorem missFrames (h : P s) : P (missFrames s) := by
  unfold Machine.missFrames
  split
  · exact h
  · exact H.takeTimeout (H.passPeriods _ h)

theorem completeOperation (h : P s) : P s.completeOperation :=
  onEngine_cases h fun f hf _ => H.finish f hf h

theorem settleBeforeBoundary (h : P s) : P s.settleBeforeBoundary := by
  unfold State.settleBeforeBoundary
  dsimp only
  split
  · split
    · exact H.completeOperation (H.windows h)
    · exact H.windows h
  · exact H.windows h

theorem boundaryWork (hidle : ∀ f, s.engine = some f → f.boundaries = 0) (h : P s) (t : LinkTime) (entry : Bool) :
    P (s.boundaryWork t entry) := by
  have hcounted : P s.swapBoundary.countBoundary := H.count (by simpa using hidle) (H.swap h)
  unfold State.boundaryWork
  dsimp only
  split
  · exact H.gain _ _ (H.meter _ _ (H.due _ hcounted))
  · exact H.meterSettling hcounted

theorem startSuperframe (h : P s) (w : ServiceWord) : P (s.startSuperframe w) := by
  have hstart : P (s.atStart w) := by
    unfold State.atStart
    split
    · exact H.setRx (H.settleBeforeBoundary h) _
    · exact H.setRx h _
  refine startSuperframe_cases (P := P) (fun _ => H.link rfl hstart) fun u entry o hblock hu => ?_
  have hidle : ∀ f, u.engine = some f → f.boundaries = 0 := by
    have hatStart : ∀ f, (s.atStart w).engine = some f → f.boundaries = 0 := by
      rw [State.atStart, if_pos hblock]
      exact settleBeforeBoundary_boundaries s
    rcases hu with rfl | rfl <;> exact hatStart
  have hbegun : P u := by
    rcases hu with rfl | rfl
    · exact hstart
    · exact H.link rfl hstart
  exact H.link rfl (H.boundaryWork hidle hbegun _ entry)

theorem reportAndArrive (h : P s) (source : Option CellSource) (arrival : Option Cell) :
    P (s.reportAndArrive source arrival) := by
  have hdrawn : P s.draw := H.link rfl h
  unfold State.reportAndArrive
  dsimp only
  split
  · exact h
  · exact H.report _ h
  · exact H.arrive _ h
  · split
    · split
      · exact H.report _ (H.arrive _ hdrawn)
      · exact H.arrive _ (H.report _ hdrawn)
    · exact H.report _ (H.arrive _ h)

theorem passFrame (h : P s) (x : Samples) : P (s.passFrame x) := by
  have hcarried : P (s.carryFrame x) := H.link rfl h
  have hchecked : P (if s.rx.lock = .running then (s.carryFrame x).accumulate.frameCheck (s.delay.headD silence)
      else s.carryFrame x) := by
    split
    · exact H.check _ (H.accumulate hcarried)
    · exact hcarried
  exact H.reportAndArrive (H.sendFrame hchecked _) _ _

theorem checkHeader (h : P s) (w0 w1 : ServiceWord) : P (s.checkHeader w0 w1) := by
  have hwords : P (s.setRx (s.rx.setWords [w0, w1])) := H.setRx h _
  unfold State.checkHeader
  dsimp only
  split
  · exact hwords
  · split
    · unfold State.validHeader
      dsimp only
      (repeat' split) <;> exact H.link (s := s) rfl h
    · exact H.headerError hwords

theorem searchFrame (h : P s) (f : Frame) : P (s.searchFrame f) := by
  unfold State.searchFrame
  (repeat' split) <;> exact H.link (s := s) rfl h

theorem confirmFrame (h : P s) (f : Frame) : P (s.confirmFrame f) := by
  unfold State.confirmFrame State.secondHeader
  (repeat' split) <;> exact H.link (s := s) rfl h

theorem frameArrives (h : P s) (f : Frame) : P (s.frameArrives f) := by
  have hheard : P (s.takeOwedTimeout.setRx s.takeOwedTimeout.rx.heard) := H.setRx (H.takeOwedTimeout h) _
  refine frameArrives_cases (P := P) (fun _ => H.searchFrame hheard f) (fun _ => H.confirmFrame hheard f) fun _ => ?_
  exact heldFrame_cases (P := P) (fun _ => H.passFrame (H.startSuperframe hheard _) _) (fun w0 _ _ => H.checkHeader hheard w0 _)
    (fun w0 _ _ => H.passFrame (H.checkHeader hheard w0 _) _) fun _ _ => H.passFrame (H.setRx hheard _) _

end KeptByFrames

/-- A property that each thing a command can do keeps. -/
structure KeptByCommands (P : State → Prop) : Prop extends KeptByFrames P where
  pinReset : ∀ x, P (State.afterReset x)
  take : ∀ {s}, P s → P (takeRequest s)
  refused : ∀ {s} c st, s.cells.inHand = some c → P s → P (s.answer c st [])
  request : ∀ {s} i code handle c, IsRequest i code handle → s.holds code c → P s → P (handle c s)
  grant : ∀ {s}, s.engine = none → P s → P s.grantNext

/-- What each thing a command can do keeps, every command keeps. -/
theorem KeptByCommands.exec {P : State → Prop} (H : KeptByCommands P) {i : Instr} {s t : State} (e : exec i s = .next t)
    (hs : P s) : P t := by
  have K := H.toKeptByFrames
  refine exec_cases ?_ e
  exact
    { unchanged := hs
      pinReset := fun x _ => K.link rfl (H.pinReset x)
      frame := fun f => K.frameArrives hs f
      windows := K.windows hs
      period := K.onePeriod (K.takeOwedTimeout hs)
      missing := K.missFrames hs
      take := H.take hs
      refused := fun c st hc => H.refused c st hc hs
      request := fun i code handle c hrow hc => H.request i code handle c hrow hc hs
      grant := fun hidle => H.grant hidle hs
      finish := fun f hf => K.finish f hf hs }

/-- What each thing a command can do keeps, every step keeps. -/
theorem KeptByCommands.step {P : State → Prop} (H : KeptByCommands P) {s t : State} (e : step s = .next t) (h : P s) : P t :=
  step_keeps (fun _ _ hs => H.link rfl hs) (fun _ _ _ he hs => H.exec he hs) e h

end Sys2Proof.Machine
end

/-! ## What the shared operations leave of the arbiter, of the operation in flight and of the programmes -/

section
namespace Sys2Proof.Machine

/-! ### The arbiter but for its two sets (R91) -/

/-- The arbiter with both sets taken away: its queue, its probe slot, its flags and its pointers. -/
def Arbiter.withoutSets (a : Arbiter) : Arbiter := { a with retune := 0, rescale := 0 }

section WithoutSets

variable {a b : Arbiter} (h : b.withoutSets = a.withoutSets)
include h

theorem directives_of_withoutSets : b.directives = a.directives := (congrArg Arbiter.directives h :)
theorem probe_of_withoutSets : b.probe = a.probe := (congrArg Arbiter.probe h :)
theorem retuneOn_of_withoutSets : b.retuneOn = a.retuneOn := (congrArg Arbiter.retuneOn h :)
theorem rescaleOn_of_withoutSets : b.rescaleOn = a.rescaleOn := (congrArg Arbiter.rescaleOn h :)

theorem eq_of_withoutSets : b = { a with retune := b.retune, rescale := b.rescale } :=
  congrArg (fun x : Arbiter => { x with retune := b.retune, rescale := b.rescale }) h

end WithoutSets

section Operations

variable (s : State) (p : Prog)

@[simp] theorem leave_withoutSets (a : Arbiter) : (a.leave p).withoutSets = a.withoutSets := rfl

@[simp] theorem requestRetune_withoutSets : (s.requestRetune p).arbiter.withoutSets = s.arbiter.withoutSets := rfl

@[simp] theorem requestRescale_withoutSets : (s.requestRescale p).arbiter.withoutSets = s.arbiter.withoutSets := rfl

@[simp] theorem swapBoundary_withoutSets : s.swapBoundary.arbiter.withoutSets = s.arbiter.withoutSets := rfl

@[simp] theorem reenter_withoutSets (op : Operation) : (s.reenter op p).arbiter.withoutSets = s.arbiter.withoutSets := by
  cases op <;> rfl

@[simp] theorem moveTo_withoutSets (st : ProgState) : (s.moveTo p st).arbiter.withoutSets = s.arbiter.withoutSets := by
  rw [State.moveTo_arbiter]
  split <;> rfl

@[simp] theorem cancelAutomatic_withoutSets : s.cancelAutomatic.arbiter.withoutSets = s.arbiter.withoutSets := by
  unfold State.cancelAutomatic
  split
  · split
    · simp
    · rfl
  · rfl

@[simp] theorem offerCues_withoutSets (old : State) : (offerCues old s).arbiter.withoutSets = s.arbiter.withoutSets := by
  unfold offerCues
  split <;> simp

@[simp] theorem reportWindow_withoutSets (l : Option Int) :
    (s.reportWindow p l).arbiter.withoutSets = s.arbiter.withoutSets := by
  unfold State.reportWindow
  split
  · dsimp only
    split <;> rfl
  · rfl

@[simp] theorem completeWindow_withoutSets (blocks : List BlockPower) :
    (s.completeWindow p blocks).arbiter.withoutSets = s.arbiter.withoutSets := by
  unfold State.completeWindow
  dsimp only
  rw [reportWindow_withoutSets]
  split <;> rfl

@[simp] theorem settleWindow_withoutSets (starts : ProgSet) :
    (State.settleWindow starts s p).arbiter.withoutSets = s.arbiter.withoutSets := by
  unfold State.settleWindow
  split
  · rfl
  · split <;> simp

@[simp] theorem settleWindows_withoutSets : s.settleWindows.arbiter.withoutSets = s.arbiter.withoutSets := by
  unfold State.settleWindows
  split
  · exact foldl_keeps (fun u => u.arbiter.withoutSets) _ (fun u p => settleWindow_withoutSets u p _) _ _
  · rfl

@[simp] theorem dueCheck_withoutSets (t : LinkTime) : (s.dueCheck t).arbiter.withoutSets = s.arbiter.withoutSets := by
  simp [State.dueCheck]

@[simp] theorem gainBoundary_withoutSets (t : LinkTime) (entry : Bool) :
    (s.gainBoundary t entry).arbiter.withoutSets = s.arbiter.withoutSets := by
  simp [State.gainBoundary]

@[simp] theorem boundaryWork_withoutSets (t : LinkTime) (entry : Bool) :
    (s.boundaryWork t entry).arbiter.withoutSets = s.arbiter.withoutSets := by
  unfold State.boundaryWork
  dsimp only
  split <;> simp

@[simp] theorem completeCue_withoutSets (e : Cue) (f : InFlight) :
    (completeCue e f s).arbiter.withoutSets = s.arbiter.withoutSets := by
  unfold completeCue
  cases e.kind with
  | segment => simp
  | switch => simp
  | hold =>
    dsimp only [completeHold]
    cases s.progs[e.prog].state with
    | dormant | tracking | held => exact moveTo_withoutSets s e.prog _
    | unused | overridden => rfl
  | release =>
    dsimp only [completeRelease]
    cases s.progs[e.prog].state with
    | held => exact moveTo_withoutSets s e.prog _
    | unused | dormant | tracking | overridden => rfl
  | preset => simp

@[simp] theorem completeDirective_withoutSets (d : DirectiveOp) (r : Reply) (f : InFlight) :
    (completeDirective d r f s).arbiter.withoutSets = s.arbiter.withoutSets := by
  unfold completeDirective
  cases d with
  | exchange expected new =>
    dsimp only [completeExchange]
    (repeat' split) <;> rfl
  | force gain snap =>
    dsimp only [completeForce]
    split
    · rfl
    · exact moveTo_withoutSets s f.prog _
  | release =>
    dsimp only [completeGainRelease]
    split
    · exact moveTo_withoutSets s f.prog _
    · rfl

@[simp] theorem operationEffects_withoutSets (f : InFlight) :
    (operationEffects f s).arbiter.withoutSets = s.arbiter.withoutSets := by
  unfold operationEffects
  cases f.op with
  | retune | rescale =>
    dsimp only [completeAutomatic]
    (repeat' split) <;> simp
  | cue e => simp
  | directive d r => simp
  | probe q r => simp

@[simp] theorem finish_withoutSets (f : InFlight) :
    (s.finish f operationEffects).arbiter.withoutSets = s.arbiter.withoutSets := by
  unfold State.finish
  split <;> simp

@[simp] theorem settleBeforeBoundary_withoutSets : s.settleBeforeBoundary.arbiter.withoutSets = s.arbiter.withoutSets := by
  unfold State.settleBeforeBoundary State.completeOperation
  dsimp only
  split
  · next f hf =>
    split
    · rw [onEngine_of hf rfl]; simp
    · simp
  · simp

end Operations

/-! ### The operation in flight -/

/-- The operation in flight in `t`, if any, is the one in flight in `s`, perhaps discarded and with other boundaries counted. -/
def State.SameOperation (s t : State) : Prop :=
  ∀ f, t.engine = some f → ∃ g, s.engine = some g ∧ f.op = g.op ∧ f.prog = g.prog ∧ f.snap = g.snap ∧
    (f.discard = false → g.discard = false)

theorem State.SameOperation.of_eq {s t : State} (h : t.engine = s.engine) : s.SameOperation t :=
  fun f hf => ⟨f, by rw [← h, hf], rfl, rfl, rfl, id⟩

theorem State.SameOperation.of_idle {s t : State} (h : t.engine = none) : s.SameOperation t :=
  fun f hf => by rw [h] at hf; cases hf

theorem State.SameOperation.trans {s t u : State} (h : s.SameOperation t) (g : t.SameOperation u) : s.SameOperation u := by
  intro f hf
  obtain ⟨f', hf', hop, hprog, hsnap, hdiscard⟩ := g f hf
  obtain ⟨f'', hf'', hop', hprog', hsnap', hdiscard'⟩ := h f' hf'
  exact ⟨f'', hf'', hop.trans hop', hprog.trans hprog', hsnap.trans hsnap', hdiscard' ∘ hdiscard⟩

theorem cancelAutomatic_engine (s : State) :
    s.cancelAutomatic.engine = if s.automaticInFlight then none else s.engine := by
  unfold State.cancelAutomatic State.automaticInFlight
  cases hf : s.engine with
  | none => simp [hf]
  | some f => cases ha : f.op.automatic <;> simp [ha, hf]

theorem cancelAutomatic_sameOperation (s : State) : s.SameOperation s.cancelAutomatic := by
  by_cases h : s.automaticInFlight = true
  · exact .of_idle (by rw [cancelAutomatic_engine, if_pos h])
  · exact .of_eq (by rw [cancelAutomatic_engine, if_neg h])

theorem offerCues_sameOperation (old s : State) : s.SameOperation (offerCues old s) := by
  unfold offerCues
  split
  · exact cancelAutomatic_sameOperation s
  · exact .of_eq rfl

theorem dueCheck_sameOperation (s : State) (t : LinkTime) : s.SameOperation (s.dueCheck t) := by
  refine State.SameOperation.trans (t := { s with cues := s.cues.map (Cue.checkDue t), owed := 0 }) (.of_eq rfl) ?_
  exact offerCues_sameOperation s _

theorem gainBoundary_sameOperation (s : State) (t : LinkTime) (entry : Bool) : s.SameOperation (s.gainBoundary t entry) := by
  refine State.SameOperation.trans (t := s.setGains (Vector.ofFn (s.gainAfterBoundary t entry))) (.of_eq rfl) ?_
  exact offerCues_sameOperation s _

theorem countBoundary_sameOperation (s : State) : s.SameOperation s.countBoundary := by
  intro f hf
  simp only [State.countBoundary, Option.map_eq_some_iff] at hf
  obtain ⟨g, hg, rfl⟩ := hf
  exact ⟨g, hg, rfl, rfl, rfl, id⟩

theorem insertPosted_withoutSets (s : State) (new : Cue) (replaced : Bool) :
    (s.insertPosted new replaced).arbiter.withoutSets = s.arbiter.withoutSets := offerCues_withoutSets _ s

theorem insertPosted_sameOperation (s : State) (new : Cue) (replaced : Bool) : s.SameOperation (s.insertPosted new replaced) :=
  .trans (.of_eq rfl) (offerCues_sameOperation s _)

theorem joinDirective_sameOperation (s : State) (c : Cell) (op : DirectiveOp) (p : Prog) :
    s.SameOperation (s.joinDirective c op p) := cancelAutomatic_sameOperation _

theorem reportEmptied_withoutSets (s : State) (p : Prog) : (s.reportEmptied p).arbiter.withoutSets = s.arbiter.withoutSets := by
  unfold State.reportEmptied
  (repeat' split)
  · exact cancelAutomatic_withoutSets s.draw
  · rfl
  · rfl

theorem reportEmptied_sameOperation (s : State) (p : Prog) : s.SameOperation (s.reportEmptied p) := by
  unfold State.reportEmptied
  (repeat' split)
  · exact cancelAutomatic_sameOperation s.draw
  · exact .of_eq rfl
  · exact .of_eq rfl

theorem tearDown_sameOperation (s : State) (p : Prog) : s.SameOperation (s.tearDown p) := by
  intro f hf
  simp only [State.tearDown, State.claimIf_engine, Option.map_eq_some_iff] at hf
  obtain ⟨g, hg, rfl⟩ := hf
  refine ⟨g, hg, ?_⟩
  split
  · exact ⟨rfl, rfl, rfl, fun hd => by cases hd⟩
  · exact ⟨rfl, rfl, rfl, id⟩

theorem closeEffects_sameOperation (s : State) (p : Prog) : s.SameOperation (s.closeEffects p) :=
  .trans (.trans (.of_eq (by simp)) (reportEmptied_sameOperation _ p)) (tearDown_sameOperation _ p)

/-- The arbiter that a CLOSE closes is the one before it, but for the sets that the report of an emptied list can enter. -/
theorem closeEffects_arbiter (s : State) (p : Prog) : ∃ a : Arbiter, a.withoutSets = s.arbiter.withoutSets ∧
    (s.closeEffects p).arbiter = a.closed p :=
  ⟨_, (reportEmptied_withoutSets _ p).trans (congrArg Arbiter.withoutSets (by simp)), rfl⟩

/-- The reservation that the operation in flight holds (R172). -/
def State.reservedInFlight (s : State) : Nat :=
  match s.engine with
  | some f => f.op.reserved
  | none => 0

theorem reservations_eq (s : State) : s.reservations = s.cells.inHand.isSome.toNat + s.arbiter.directives.length +
    s.arbiter.probe.isSome.toNat + s.reservedInFlight := by
  unfold State.reservations State.reservedInFlight
  cases s.cells.inHand <;> cases s.arbiter.probe <;> cases s.engine <;> rfl

theorem reservedInFlight_of_some {s : State} {f : InFlight} (h : s.engine = some f) : s.reservedInFlight = f.op.reserved := by
  simp [State.reservedInFlight, h]

theorem reservedInFlight_of_none {s : State} (h : s.engine = none) : s.reservedInFlight = 0 := by
  simp [State.reservedInFlight, h]

theorem State.SameOperation.reservedInFlight_le {s t : State} (h : s.SameOperation t) :
    t.reservedInFlight ≤ s.reservedInFlight := by
  cases hf : t.engine with
  | none => rw [reservedInFlight_of_none hf]; omega
  | some f =>
    obtain ⟨g, hg, hop, -⟩ := h f hf
    rw [reservedInFlight_of_some hf, reservedInFlight_of_some hg, hop]

end Sys2Proof.Machine
end

/-! ## The queues and the staged lists keep their limits (R88, R90, R141, R169, R170, R172) -/

section
namespace Sys2Proof.Machine

/-! ### The queues of the Cell Handler and of the arbiter -/

namespace State.WithinLimits

variable {s t u : State} {c : Cell}

/-- The limits hold where nothing has grown. -/
theorem mono (h : s.WithinLimits) (hrequests : t.cells.requests.length ≤ s.cells.requests.length)
    (hforward : t.cells.forward.length ≤ s.cells.forward.length)
    (hdirectives : t.arbiter.directives.length ≤ s.arbiter.directives.length)
    (hresponses : t.cells.responses.length + t.reservations ≤ s.cells.responses.length + s.reservations)
    (hinHand : t.cells.inHand = s.cells.inHand ∨ t.cells.inHand = none) : t.WithinLimits where
  requests := hrequests.trans h.requests
  forward := hforward.trans h.forward
  directives := hdirectives.trans h.directives
  responses := hresponses.trans h.responses
  room c hc hd := by
    obtain hsame | hnone := hinHand
    · exact lt_of_le_of_lt hdirectives (h.room c (hsame ▸ hc) hd)
    · rw [hnone] at hc; cases hc

theorem congr (h : s.WithinLimits) (hcells : t.cells = s.cells) (harbiter : t.arbiter.withoutSets = s.arbiter.withoutSets)
    (hop : s.SameOperation t) : t.WithinLimits := by
  have hdirectives := directives_of_withoutSets harbiter
  have hprobe := probe_of_withoutSets harbiter
  have hreserved := hop.reservedInFlight_le
  refine h.mono (by rw [hcells]) (by rw [hcells]) (by rw [hdirectives]) ?_ (.inl (by rw [hcells]))
  rw [reservations_eq, reservations_eq, hcells, hdirectives, hprobe]
  omega

theorem congr_eq (h : s.WithinLimits) (hcells : t.cells = s.cells) (harbiter : t.arbiter = s.arbiter)
    (hengine : t.engine = s.engine) : t.WithinLimits :=
  h.congr hcells (congrArg _ harbiter) (.of_eq hengine)

/-- An answer takes the place of the reservation of the request in hand (R172), whatever else the request has done. -/
theorem answered (h : s.WithinLimits) (hc : s.cells.inHand = some c) (hcells : u.cells = s.cells)
    (hdirectives : u.arbiter.directives.length = s.arbiter.directives.length)
    (hprobe : u.arbiter.probe.isSome = s.arbiter.probe.isSome) (hop : s.SameOperation u) (st : Status) (n : Byte)
    (payload : List Byte) : (u.answerCount c st n payload).WithinLimits := by
  have hreserved : (u.answerCount c st n payload).reservedInFlight ≤ s.reservedInFlight := hop.reservedInFlight_le
  refine h.mono (by simp [hcells]) (by simp [hcells]) (by simp [hdirectives]) ?_ (.inr rfl)
  rw [reservations_eq, reservations_eq]
  simp only [State.answerCount_cells, State.answerCount_arbiter, hcells, hdirectives, hprobe, List.length_append,
    List.length_singleton, hc]
  simp
  omega

/-- An answer that leaves the arbiter and the engine as they are. -/
theorem answered_eq (h : s.WithinLimits) (hc : s.cells.inHand = some c) (hcells : u.cells = s.cells)
    (harbiter : u.arbiter.withoutSets = s.arbiter.withoutSets) (hengine : u.engine = s.engine) (st : Status) (n : Byte)
    (payload : List Byte) : (u.answerCount c st n payload).WithinLimits :=
  h.answered hc hcells (by rw [directives_of_withoutSets harbiter]) (by rw [probe_of_withoutSets harbiter]) (.of_eq hengine)
    st n payload

/-- A directive takes its request's reservation with it into the queue, where REQUEST_TAKE has seen to a place (R170, R171). -/
theorem joinDirective (h : s.WithinLimits) (hc : s.cells.inHand = some c) (hd : Cell.isDirective c = true) (op : DirectiveOp)
    (p : Prog) : (s.joinDirective c op p).WithinLimits := by
  have hroom := h.room c hc hd
  have hload := h.responses
  have hjoined : WithinLimits { s with
      cells := { s.cells with inHand := none }
      arbiter := { s.arbiter with
        directives := s.arbiter.directives ++ [{ op := op, prog := p, reply := Cell.reply c, abort := false }] } } := by
    refine ⟨h.requests, h.forward, by simpa using hroom, ?_, fun c hc => by cases hc⟩
    rw [reservations_eq, hc] at hload
    rw [reservations_eq]
    simp only [List.length_append, List.length_singleton, State.reservedInFlight] at hload ⊢
    simp at hload ⊢
    omega
  exact hjoined.congr (by simp [State.joinDirective]) (cancelAutomatic_withoutSets _) (cancelAutomatic_sameOperation _)

theorem requestProbe (h : s.WithinLimits) (hc : s.cells.inHand = some c) : (requestProbe c s).WithinLimits := by
  unfold Machine.requestProbe
  split
  · exact h.answered_eq hc rfl rfl rfl _ _ _
  · exact h.answered_eq hc rfl rfl rfl _ _ _
  · split
    · exact h.answered_eq hc rfl rfl rfl _ _ _
    · next hempty =>
      refine h.mono le_rfl le_rfl le_rfl ?_ (.inr rfl)
      rw [reservations_eq, reservations_eq, hc]
      simp only [State.reservedInFlight]
      simp [hempty]

/-- What each request row does to the queues. -/
theorem request {i : Instr} {code : Nat} {handle : Cell → State → State} (hrow : IsRequest i code handle)
    (hc : s.holds code c) (h : s.WithinLimits) : (handle c s).WithinLimits := by
  obtain ⟨hhand, hkind, -⟩ := hc
  have hsame {u : State} (hcells : u.cells = s.cells) (harbiter : u.arbiter.withoutSets = s.arbiter.withoutSets)
      (hengine : u.engine = s.engine) (st : Status) (n : Byte) (payload : List Byte) :
      (u.answerCount c st n payload).WithinLimits := h.answered_eq hhand hcells harbiter hengine st n payload
  cases hrow
  case ident => (refine hsame ?_ ?_ ?_ _ _ _ <;> rfl)
  case read => unfold readTable; dsimp only; (repeat' split) <;> (refine hsame ?_ ?_ ?_ _ _ _ <;> rfl)
  case profileWrite => unfold writeProfile; (repeat' split) <;> (refine hsame ?_ ?_ ?_ _ _ _ <;> rfl)
  case lawLoad => unfold loadLaw; dsimp only; (repeat' split) <;> (refine hsame ?_ ?_ ?_ _ _ _ <;> rfl)
  case lawSwap => unfold swapLaws; dsimp only; (repeat' split) <;> (refine hsame ?_ ?_ ?_ _ _ _ <;> rfl)
  case slotMap => unfold mapRequest; dsimp only; (repeat' split) <;> (refine hsame ?_ ?_ ?_ _ _ _ <;> rfl)
  case openProgramme => unfold openRequest; (repeat' split) <;> (refine hsame ?_ ?_ ?_ _ _ _ <;> rfl)
  case closeProgramme =>
    unfold closeRequest
    split
    · refine hsame ?_ ?_ ?_ _ _ _ <;> rfl
    · split
      · next p _ _ =>
        obtain ⟨a, ha, hclosed⟩ := closeEffects_arbiter s p
        refine h.answered hhand (by simp) ?_ ?_ (closeEffects_sameOperation s p) _ _ _
        · rw [hclosed, ← directives_of_withoutSets ha]
          exact List.length_map _
        · rw [hclosed, ← probe_of_withoutSets ha]
          exact Option.isSome_map
      · refine hsame ?_ ?_ ?_ _ _ _ <;> rfl
  case cuePost =>
    unfold postCue
    dsimp only
    (repeat' split) <;> try (refine hsame ?_ ?_ ?_ _ _ _ <;> rfl)
    have harbiter := insertPosted_withoutSets s
    exact h.answered hhand (by simp) (by rw [directives_of_withoutSets (harbiter _ _)])
      (by rw [probe_of_withoutSets (harbiter _ _)]) (insertPosted_sameOperation s _ _) _ _ _
  case cueWithdraw => unfold withdrawCue; dsimp only; (repeat' split) <;> (refine hsame ?_ ?_ ?_ _ _ _ <;> rfl)
  case profileExchange =>
    unfold requestExchange
    split
    · (refine hsame ?_ ?_ ?_ _ _ _ <;> rfl)
    · exact h.joinDirective hhand (by simp [Cell.isDirective, hkind]) _ _
    · (refine hsame ?_ ?_ ?_ _ _ _ <;> rfl)
  case gainForce =>
    unfold requestForce
    split
    · (refine hsame ?_ ?_ ?_ _ _ _ <;> rfl)
    · exact h.joinDirective hhand (by simp [Cell.isDirective, hkind]) _ _
    · (refine hsame ?_ ?_ ?_ _ _ _ <;> rfl)
  case gainRelease =>
    unfold requestRelease
    split
    · (refine hsame ?_ ?_ ?_ _ _ _ <;> rfl)
    · exact h.joinDirective hhand (by simp [Cell.isDirective, hkind]) _ _
  case probe => exact h.requestProbe hhand
  case presenceRead => (refine hsame ?_ ?_ ?_ _ _ _ <;> rfl)
  case segmentReset => unfold resetSegment; (repeat' split) <;> (refine hsame ?_ ?_ ?_ _ _ _ <;> rfl)
  case participate => unfold setParticipation; split <;> (refine h.answered hhand ?_ ?_ ?_ (.of_eq ?_) _ _ _ <;> rfl)
  case conditionsRead => (refine hsame ?_ ?_ ?_ _ _ _ <;> rfl)
  case conditionsClear => unfold clearConditions; (repeat' split) <;> (refine hsame ?_ ?_ ?_ _ _ _ <;> rfl)
  case noticeSet => unfold Machine.setNotice; (repeat' split) <;> (refine hsame ?_ ?_ ?_ _ _ _ <;> rfl)
  case restart =>
    refine ⟨by simp [restartPart], h.forward, by simp [restartPart, Arbiter.reset], ?_, fun c hc => by cases hc⟩
    simp [restartPart, Arbiter.reset, reservations_eq, State.reservedInFlight]

/-! What REQUEST_TAKE, GRANT and a completion do to the queues (R93, R98, R110, R170). -/

theorem takeRequest (h : s.WithinLimits) : (takeRequest s).WithinLimits := by
  unfold Machine.takeRequest
  split
  · next head rest hqueue =>
    split
    · next hmay =>
      simp only [State.mayTake, Bool.and_eq_true, Bool.or_eq_true, Bool.not_eq_true', decide_eq_true_eq,
        Option.isNone_iff_eq_none] at hmay
      obtain ⟨⟨hfree, hload⟩, hplace⟩ := hmay
      have hrequests := h.requests
      rw [hqueue, List.length_cons] at hrequests
      refine ⟨by simp only [State.setCells_cells]; omega, h.forward, h.directives, ?_, fun c hc hd => ?_⟩
      · rw [reservations_eq, hfree] at hload
        rw [reservations_eq]
        simp only [State.setCells_cells, State.setCells_arbiter, State.reservedInFlight, State.setCells_engine] at hload ⊢
        simp at hload ⊢
        omega
      · cases hc
        exact hplace.resolve_left (by simp [hd])
    · exact h
  · exact h

/-- The limits hold where the Cell Handler stays and no reservation is added. -/
theorem moved (h : s.WithinLimits) (hcells : t.cells = s.cells)
    (hdirectives : t.arbiter.directives.length ≤ s.arbiter.directives.length) (hreservations : t.reservations ≤ s.reservations) :
    t.WithinLimits :=
  h.mono (by rw [hcells]) (by rw [hcells]) hdirectives (by rw [hcells]; omega) (.inl (by rw [hcells]))

theorem abortDirectives (h : s.WithinLimits) : s.abortDirectives.WithinLimits := by
  have hparts := congrArg List.length (List.takeWhile_append_dropWhile (p := fun d : Directive => d.abort) (l := s.arbiter.directives))
  rw [List.length_append] at hparts
  refine h.mono le_rfl le_rfl ?_ ?_ (.inl rfl)
  · show (s.arbiter.directives.dropWhile _).length ≤ _
    omega
  · rw [reservations_eq, reservations_eq]
    simp only [State.abortDirectives, State.reservedInFlight, List.length_append, List.length_map]
    omega

theorem grantAutomatic (h : s.WithinLimits) {op : Operation} (hop : op.reserved = 0) (p : Prog) :
    (s.grantAutomatic op p).WithinLimits := by
  refine h.moved rfl le_rfl ?_
  rw [reservations_eq, reservations_eq, reservedInFlight_of_some (f := { op := op, prog := p, .. }) rfl, hop]
  exact Nat.le_add_right _ _

theorem grantSets (h : s.WithinLimits) : s.grantSets.WithinLimits := by
  unfold State.grantSets
  split
  · exact grantAutomatic (h.moved (by rfl) (by exact le_rfl) (by exact le_rfl)) (by rfl) _
  · exact grantAutomatic (h.moved (by rfl) (by exact le_rfl) (by exact le_rfl)) (by rfl) _
  · exact h

theorem grantProbeOrSets (h : s.WithinLimits) (hidle : s.engine = none) : s.grantProbeOrSets.WithinLimits := by
  unfold State.grantProbeOrSets
  split
  · next e hprobe =>
    split
    · refine grantSets (h.mono le_rfl le_rfl le_rfl ?_ (.inl rfl))
      rw [reservations_eq, reservations_eq, hprobe]
      simp [State.reservedInFlight]
      omega
    · refine h.moved rfl le_rfl ?_
      rw [reservations_eq, reservations_eq, hprobe, reservedInFlight_of_none hidle]
      exact le_rfl
  · exact h.grantSets

theorem grantNext (h : s.WithinLimits) (hidle : s.engine = none) : s.grantNext.WithinLimits := by
  have haborted := h.abortDirectives
  unfold State.grantNext
  dsimp only
  split
  · next _ d rest hqueue =>
    refine haborted.moved rfl ?_ ?_
    · show rest.length ≤ _
      rw [hqueue, List.length_cons]
      omega
    · rw [reservations_eq, reservations_eq, hqueue, List.length_cons, reservedInFlight_of_none (s := s.abortDirectives) hidle]
      show _ + rest.length + _ + 1 ≤ _
      simp only [State.beginOperation_cells, State.setArbiter_cells, State.beginOperation_arbiter, State.setArbiter_arbiter]
      omega
  · refine haborted.moved (by simp) (by simp) ?_
    rw [reservations_eq, reservations_eq, reservedInFlight_of_none (s := s.abortDirectives) hidle]
    exact le_rfl
  · exact haborted.grantProbeOrSets hidle

end State.WithinLimits

/-- A completion adds at most the response that the operation had reserved (R110). -/
theorem operationEffects_cells (f : InFlight) (s : State) : ∃ added : List MadeCell, added.length ≤ f.op.reserved ∧
    (operationEffects f s).cells = { s.cells with responses := s.cells.responses ++ added } := by
  have hfill {op : Operation} (hop : op.reserved = 1) {u : State} (hu : u.cells = s.cells) (r : Reply) (st : Status)
      (payload : List Byte) : ∃ added : List MadeCell, added.length ≤ op.reserved ∧
        (u.fill r st payload).cells = { s.cells with responses := s.cells.responses ++ added } :=
    ⟨[r.made st r.count payload], hop.ge, by rw [State.fill_cells, hu]⟩
  unfold operationEffects
  cases f.op with
  | retune | rescale => exact ⟨[], Nat.zero_le _, by simp⟩
  | cue e => exact ⟨[], Nat.zero_le _, by simp⟩
  | directive d r =>
    dsimp only [completeDirective]
    cases d with
    | exchange expected new => dsimp only [completeExchange]; (repeat' split) <;> exact hfill rfl rfl _ _ _
    | force gain snap => dsimp only [completeForce]; split <;> exact hfill rfl rfl _ _ _
    | release => dsimp only [completeGainRelease]; split <;> exact hfill rfl rfl _ _ _
  | probe q r =>
    dsimp only [completeProbe]
    split
    · exact hfill rfl rfl _ _ _
    · split
      · exact hfill rfl rfl _ _ _
      · exact ⟨[], Nat.zero_le _, by simp⟩

theorem finish_cells (f : InFlight) (s : State) : ∃ added : List MadeCell, added.length ≤ f.op.reserved ∧
    (s.finish f operationEffects).cells = { s.cells with responses := s.cells.responses ++ added } := by
  unfold State.finish
  split
  · unfold State.discardOperation
    cases f.op with
    | retune | rescale | cue _ => exact ⟨[], Nat.zero_le _, by simp⟩
    | directive _ r | probe _ r => exact ⟨[r.made .aborted r.count []], le_rfl, rfl⟩
  · exact operationEffects_cells f s

namespace State.WithinLimits

variable {s : State}

theorem finish (h : s.WithinLimits) {f : InFlight} (hf : s.engine = some f) : (s.finish f operationEffects).WithinLimits := by
  obtain ⟨added, hadded, hcells⟩ := finish_cells f s
  have hsources := finish_withoutSets s f
  have hdirectives := directives_of_withoutSets hsources
  refine h.mono (by rw [hcells]) (by rw [hcells]) (by rw [hdirectives]) ?_ (.inl (by rw [hcells]))
  rw [reservations_eq, reservations_eq, hcells, hdirectives, probe_of_withoutSets hsources, reservedInFlight_of_some hf,
    reservedInFlight_of_none (s := s.finish f operationEffects) rfl, List.length_append]
  dsimp only
  omega

/-! What a frame does to the queues (R166 to R169, R172). -/

theorem dropCell (h : s.WithinLimits) : s.dropCell.WithinLimits := ⟨h.requests, h.forward, h.directives, h.responses, h.room⟩

theorem joinRequests (h : s.WithinLimits) (c : Cell) : (s.joinRequests c).WithinLimits := by
  unfold State.joinRequests queueLimit
  split
  · next hroom => exact ⟨by simpa using hroom, h.forward, h.directives, h.responses, h.room⟩
  · exact h.dropCell

theorem joinForward (h : s.WithinLimits) (c : Cell) : (s.joinForward c).WithinLimits := by
  unfold State.joinForward queueLimit
  split
  · next hroom => exact ⟨h.requests, by simpa using hroom, h.directives, h.responses, h.room⟩
  · exact h.dropCell

theorem joinBoth (h : s.WithinLimits) (c : Cell) : (s.joinBoth c).WithinLimits := by
  unfold State.joinBoth queueLimit
  split
  · next hroom => exact ⟨by simpa using hroom.1, by simpa using hroom.2, h.directives, h.responses, h.room⟩
  · exact h.dropCell

theorem arriveCell (h : s.WithinLimits) (c : Cell) : (s.arriveCell c).WithinLimits := by
  unfold State.arriveCell
  split
  · exact h
  · split
    · exact ⟨h.requests, h.forward, h.directives, h.responses, h.room⟩
    · split
      · split
        · exact h
        · exact h.joinRequests c
      · split
        · exact h.joinBoth c
        · exact h.joinForward c

theorem sentReport (h : s.WithinLimits) (source : CellSource) : (s.sentReport source).WithinLimits := by
  cases source with
  | idle | gone | notice => exact h.congr_eq rfl rfl rfl
  | forward =>
    refine h.mono le_rfl ?_ le_rfl le_rfl (.inl rfl)
    simp [State.sentReport]
  | response =>
    refine h.mono le_rfl le_rfl le_rfl ?_ (.inl rfl)
    show (s.cells.responses.drop 1).length + s.reservations ≤ _
    rw [List.length_drop]
    omega

end State.WithinLimits

theorem State.WithinLimits.afterReset (x : Straps) : (State.afterReset x).WithinLimits := by
  constructor <;> simp [State.afterReset, CellHandler.reset, Arbiter.reset, State.reservations]

theorem withinLimits_kept : KeptByCommands State.WithinLimits where
  link e h := by rw [e]; exact ⟨h.requests, h.forward, h.directives, h.responses, h.room⟩
  countError _ h := ⟨h.requests, h.forward, h.directives, h.responses, h.room⟩
  arrive c h := h.arriveCell c
  report source h := h.sentReport source
  windows h := h.congr (by simp) (by simp) (.of_eq (by simp))
  finish _ hf h := h.finish hf
  swap h := h.congr (by simp) (by simp) (.of_eq (by simp))
  count _ h := h.congr (by simp) (by simp) (countBoundary_sameOperation _)
  due t h := h.congr (by simp) (by simp) (dueCheck_sameOperation _ t)
  meter _ _ h := h.congr_eq (by simp) (by simp) (by simp)
  meterSettling h := h.congr_eq (by simp) (by simp) (by simp)
  gain t entry h := h.congr (by simp) (by simp) (gainBoundary_sameOperation _ t entry)
  accumulate h := h.congr_eq (by simp) (by simp) (by simp)
  check _ h := h.congr_eq (by simp) (by simp) (by simp)
  meterDeparture h := h.congr_eq (by simp) (by simp) (by simp)
  gainDeparture h := h.congr_eq (by simp) (by simp) (by simp)
  pinReset := .afterReset
  take h := h.takeRequest
  refused _ _ hc h := h.answered_eq hc rfl rfl rfl _ _ _
  request _ _ _ _ hrow hc h := h.request hrow hc
  grant hidle h := h.grantNext hidle

end Sys2Proof.Machine
end

/-! ## What a completion can do (R98, R101, R102, R106 to R109, R129) -/

section
namespace Sys2Proof.Machine

/-- What a cue can do at completion, told as what a property `P` of the state after it has to be shown for (R129). -/
structure CueCases (P : State → Prop) (s : State) (e : Cue) : Prop where
  unchanged : P s
  profiled : s.progs[e.prog].state ≠ .unused → P (s.profilePart e)
  profiledStaged : s.progs[e.prog].state ≠ .unused → ∀ gain snap, P ((s.profilePart e).stage e gain snap)
  profiledSkipped : s.progs[e.prog].state = .overridden → P ((s.profilePart e).skipCue e.prog)
  skipped : s.progs[e.prog].state ≠ .unused → P (s.skipCue e.prog)
  held : s.progs[e.prog].state ≠ .unused → P ((s.moveTo e.prog .held).stage e none false)
  released : s.progs[e.prog].state = .held →
    P ((s.moveTo e.prog s.progs[e.prog].presence.released).requestRetune e.prog)
  staged : s.progs[e.prog].state ≠ .unused → P (s.stage e e.gain e.snap)

theorem completeCue_cases {P : State → Prop} {s : State} {e : Cue} (H : CueCases P s e) (f : InFlight) :
    P (completeCue e f s) := by
  obtain ⟨hunchanged, hprofiled, hprofiledStaged, hprofiledSkipped, hskipped, hheld, hreleased, hstaged⟩ := H
  unfold completeCue
  cases e.kind with
  | segment =>
    dsimp only [completeSegment]
    cases hst : s.progs[e.prog].state with
    | unused => exact hunchanged
    | dormant | held | tracking =>
      dsimp only
      split
      · exact hprofiledStaged (by rw [hst]; decide) _ _
      · exact hprofiled (by rw [hst]; decide)
    | overridden =>
      dsimp only
      split
      · exact hprofiledSkipped hst
      · exact hprofiled (by rw [hst]; decide)
  | switch =>
    dsimp only [completeSwitch]
    cases hst : s.progs[e.prog].state with
    | unused => exact hunchanged
    | dormant | held => exact hprofiled (by rw [hst]; decide)
    | tracking =>
      dsimp only
      split
      · exact hprofiledStaged (by rw [hst]; decide) _ _
      · exact hprofiled (by rw [hst]; decide)
    | overridden => exact hprofiledSkipped hst
  | hold =>
    dsimp only [completeHold]
    cases hst : s.progs[e.prog].state with
    | unused => exact hunchanged
    | dormant | tracking | held => exact hheld (by rw [hst]; decide)
    | overridden => exact hskipped (by rw [hst]; decide)
  | release =>
    dsimp only [completeRelease]
    cases hst : s.progs[e.prog].state with
    | unused => exact hunchanged
    | held => exact hreleased hst
    | dormant | tracking | overridden => exact hskipped (by rw [hst]; decide)
  | preset =>
    dsimp only [completePreset]
    cases hst : s.progs[e.prog].state with
    | unused => exact hunchanged
    | dormant | tracking | held => exact hstaged (by rw [hst]; decide)
    | overridden => exact hskipped (by rw [hst]; decide)

/-- What the effects of an operation can be, told as what a property `P` of the state after them has to be shown for. -/
structure EffectCases (P : State → Prop) (s : State) (f : InFlight) : Prop where
  unchanged : P s
  reentered : P (s.reenter f.op f.prog)
  target : ∀ g, P (s.setTarget f.prog g)
  filled : ∀ r st payload, P (s.fill r st payload)
  exchanged : s.progs[f.prog].state ≠ .unused → ∀ new r payload,
    P (((s.setProfile f.prog new).requestRetune f.prog).fill r .done payload)
  forced : s.progs[f.prog].state ≠ .unused → ∀ gain snap r payload, P ((s.forced f.prog gain snap).fill r .done payload)
  released : s.progs[f.prog].state = .overridden → ∀ r payload,
    P (((s.moveTo f.prog s.progs[f.prog].presence.released).requestRetune f.prog).fill r .done payload)
  cue : ∀ e, f.op = .cue e → CueCases P s e

theorem operationEffects_cases {P : State → Prop} {s : State} {f : InFlight} (H : EffectCases P s f) :
    P (operationEffects f s) := by
  have hautomatic : P (completeAutomatic f s) := by
    unfold completeAutomatic
    split
    · exact H.reentered
    · split
      · exact H.unchanged
      · split
        · exact H.target _
        · exact H.unchanged
  unfold operationEffects
  split
  · exact hautomatic
  · exact hautomatic
  · next e he => exact completeCue_cases (H.cue e he) f
  · next d r _ =>
    unfold completeDirective
    cases d with
    | exchange expected new =>
      dsimp only [completeExchange]
      split
      · exact H.filled _ _ _
      · next ho =>
        split
        · exact H.exchanged (by simpa [State.opened] using ho) _ _ _
        · exact H.filled _ _ _
    | force gain snap =>
      dsimp only
      by_cases ho : s.progs[f.prog].state = .unused
      · rw [completeForce_of_unused ho]
        exact H.filled _ _ _
      · rw [completeForce_of_opened ho]
        exact H.forced ho _ _ _ _
    | release =>
      dsimp only [completeGainRelease]
      split
      · next ho => exact H.released ho _ _
      · exact H.filled _ _ _
  · unfold completeProbe
    split
    · exact H.filled _ _ _
    · split
      · exact H.filled _ _ _
      · exact H.unchanged

/-- A completion leaves the engine idle after the discard of the operation or after its effects (R98). -/
theorem finish_cases {P : State → Prop} {s : State} {f : InFlight} (hunchanged : P s.idleEngine)
    (haborted : ∀ r, P (s.fill r .aborted []).idleEngine)
    (heffects : f.discard = false → EffectCases (fun u => P u.idleEngine) s f) : P (s.finish f operationEffects) := by
  unfold State.finish
  split
  · unfold State.discardOperation
    cases f.op with
    | retune | rescale | cue _ => exact hunchanged
    | directive _ r | probe _ r => exact haborted r
  · next hd => exact operationEffects_cases (heffects (by simpa using hd))

/-! ### Reading a record of a programme after an update -/

theorem getElem_set_prog {α : Type} (v : Vector α 16) (p q : Prog) (x : α) : (v.set p x)[q] = if p = q then x else v[q] := by
  simp only [Fin.getElem_fin, Vector.getElem_set, Fin.ext_iff]

theorem getElem_ofFn_prog {α : Type} (f : Prog → α) (p : Prog) : (Vector.ofFn f)[p] = f p := by
  simp only [Fin.getElem_fin, Vector.getElem_ofFn, Fin.eta]

/-- A property of every record holds after one of them is replaced by a record that has it. -/
theorem forall_getElem_set {α : Type} {R : Prog → α → Prop} {v : Vector α 16} {p : Prog} {x : α} (h : ∀ q : Prog, R q v[q])
    (hx : R p x) (q : Prog) : R q (v.set p x)[q] := by
  rw [getElem_set_prog]
  split
  · next hpq => exact hpq ▸ hx
  · exact h q

end Sys2Proof.Machine
end

/-! ## The staged lists keep their limits (R90, R141), and the limits as one statement -/

section
namespace Sys2Proof.Machine

/-! ### The staged lists -/

/-- No staged list of `t` is longer than in `s`. -/
def State.NoMoreStaged (s t : State) : Prop := ∀ p : Prog, t.gains[p].staged.length ≤ s.gains[p].staged.length

theorem State.NoMoreStaged.of_eq {s t : State} (h : t.gains = s.gains) : s.NoMoreStaged t := fun p => by rw [h]

theorem State.NoMoreStaged.of_set {s t : State} {p : Prog} {g : GainRecord} (h : t.gains = s.gains.set p g)
    (hg : g.staged.length ≤ s.gains[p].staged.length) : s.NoMoreStaged t := by
  intro q
  rw [h]
  exact forall_getElem_set (R := fun q (x : GainRecord) => x.staged.length ≤ s.gains[q].staged.length) (fun _ => le_rfl) hg q

theorem setTarget_noMoreStaged (s : State) (p : Prog) (g : Int) : s.NoMoreStaged (s.setTarget p g) := by
  by_cases ho : s.progs[p].state = .unused
  · exact .of_eq (by rw [State.setTarget_gains, opened_eq_false ho, if_neg Bool.false_ne_true])
  · rw [setTarget_of_opened ho]
    exact .of_set (State.setGain_gains _ _ _) le_rfl

theorem setProfile_noMoreStaged (s : State) (p : Prog) (q : ProfileNo) : s.NoMoreStaged (s.setProfile p q) :=
  setTarget_noMoreStaged (s.setProg p _) p _

theorem profilePart_noMoreStaged (s : State) (e : Cue) : s.NoMoreStaged (s.profilePart e) := by
  unfold State.profilePart
  split
  · exact setProfile_noMoreStaged s _ _
  · exact .of_eq rfl

theorem boundaryWork_staged_length (q : Profile) (t : LinkTime) (entry : Bool) (m : Nat) (g : GainRecord) :
    (g.boundaryWork q t entry m).staged.length ≤ g.staged.length := by
  rw [boundaryWork_staged]
  exact List.length_filter_le _ _

theorem length_insertStaged (new : Staged) (l : List Staged) : (insertStaged new l).length = l.length + 1 := by
  induction l with
  | nil => rfl
  | cons e rest ih =>
    unfold insertStaged
    split
    · rw [List.length_cons, ih, List.length_cons]
    · rfl

/-- The entry that a cue's gain part stages (R130). -/
def Cue.stagedEntry (e : Cue) (gain : Option Int) (snap : Bool) : Staged :=
  { boundary := e.block + 128, kind := e.kind, gain := gain, snap := snap, late := e.late }

theorem stage_of_opened {s : State} {e : Cue} (ho : s.progs[e.prog].state ≠ .unused) (gain : Option Int) (snap : Bool) :
    s.stage e gain snap = s.setGain e.prog { s.gains[e.prog] with
      staged := insertStaged (e.stagedEntry gain snap) s.gains[e.prog].staged } := by
  unfold State.stage
  dsimp only
  rw [if_pos ((opened_iff s e.prog).mpr ho)]
  rfl

theorem stage_of_unused {s : State} {e : Cue} (ho : s.progs[e.prog].state = .unused) (gain : Option Int) (snap : Bool) :
    s.stage e gain snap = s := by
  unfold State.stage
  dsimp only
  rw [opened_eq_false ho, if_neg Bool.false_ne_true]
  rfl

/-- A claim of a staged entry lengthens the list of its own programme by one, and no other. -/
theorem stage_staged_length (s : State) (e : Cue) (gain : Option Int) (snap : Bool) (q : Prog) :
    (s.stage e gain snap).gains[q].staged.length ≤ s.gains[q].staged.length + if e.prog = q then 1 else 0 := by
  by_cases ho : s.progs[e.prog].state = .unused
  · rw [stage_of_unused ho]
    exact Nat.le_add_right _ _
  · rw [stage_of_opened ho, State.setGain_gains, getElem_set_prog]
    split
    · next hq => rw [← hq]; exact (length_insertStaged _ _).le
    · exact Nat.le_add_right _ _

/-- An entry is eligible where it is DUE, the first DUE entry of its programme, and finds fewer than 2 staged entries (R90). -/
theorem eligible_iff {s : State} {e : Cue} : s.eligible e = true ↔
    e.due = true ∧ firstDue s.cues e.prog = some e ∧ s.gains[e.prog].staged.length < 2 := by
  rw [State.eligible, Bool.and_eq_true, beq_iff_eq, State.eligibleFor]
  split
  · next hroom => exact ⟨fun ⟨hd, hf⟩ => ⟨hd, hf, hroom⟩, fun ⟨hd, hf, _⟩ => ⟨hd, hf⟩⟩
  · next hfull => exact ⟨fun ⟨_, hf⟩ => (nomatch hf), fun ⟨_, _, hroom⟩ => absurd hroom hfull⟩

namespace State.StagedKept

variable {s t : State}

theorem mono (h : s.StagedKept) (hgains : s.NoMoreStaged t) (hop : s.SameOperation t) : t.StagedKept where
  atMostTwo p := (hgains p).trans (h.atMostTwo p)
  inFlight f e hf he := by
    obtain ⟨g, hg, hgop, hprog, -, hdiscard⟩ := hop f hf
    obtain ⟨hsame, hone⟩ := h.inFlight g e hg (hgop ▸ he)
    exact ⟨hprog.trans hsame, fun hd => (hgains e.prog).trans (hone (hdiscard hd))⟩

theorem congr (h : s.StagedKept) (hgains : t.gains = s.gains) (hengine : t.engine = s.engine) : t.StagedKept :=
  h.mono (.of_eq hgains) (.of_eq hengine)

/-- With the engine idle the limit of 2 entries is all there is to keep. -/
theorem of_idle (hidle : t.engine = none) (hgains : ∀ p : Prog, t.gains[p].staged.length ≤ 2) : t.StagedKept :=
  ⟨hgains, fun f e hf _ => by rw [hidle] at hf; cases hf⟩

theorem finish (h : s.StagedKept) {f : InFlight} (hf : s.engine = some f) : (s.finish f operationEffects).StagedKept := by
  have hkept {u : State} (hu : s.NoMoreStaged u) : u.idleEngine.StagedKept :=
    of_idle rfl fun p => (hu p).trans (h.atMostTwo p)
  have hstaged {u : State} {e : Cue} (hd : f.discard = false) (he : f.op = .cue e) (hu : s.NoMoreStaged u) (gain : Option Int)
      (snap : Bool) : (u.stage e gain snap).idleEngine.StagedKept := by
    refine of_idle rfl fun p => (stage_staged_length u e gain snap p).trans ?_
    have hroom := (h.inFlight f e hf he).2 hd
    have hbefore := hu p
    have htwo := h.atMostTwo p
    split
    · next hp => subst hp; omega
    · omega
  refine finish_cases (hkept (.of_eq rfl)) (fun _ => hkept (.of_eq rfl)) fun hd => ?_
  exact
    { unchanged := hkept (.of_eq rfl)
      reentered := hkept (.of_eq (by simp))
      target := fun g => hkept (setTarget_noMoreStaged s _ g)
      filled := fun _ _ _ => hkept (.of_eq rfl)
      exchanged := fun _ _ _ _ => hkept (setProfile_noMoreStaged s _ _)
      forced := fun _ _ _ _ _ => hkept (.of_set rfl (Nat.zero_le _))
      released := fun _ _ _ => hkept (.of_eq rfl)
      cue := fun e he =>
        { unchanged := hkept (.of_eq rfl)
          profiled := fun _ => hkept (profilePart_noMoreStaged s e)
          profiledStaged := fun _ gain snap => hstaged hd he (profilePart_noMoreStaged s e) gain snap
          profiledSkipped := fun _ => hkept (profilePart_noMoreStaged s e)
          skipped := fun _ => hkept (.of_eq rfl)
          held := fun _ => hstaged hd he (.of_eq (t := s.moveTo e.prog .held) rfl) none false
          released := fun _ => hkept (.of_eq rfl)
          staged := fun _ => hstaged hd he (.of_eq rfl) e.gain e.snap } }

/-- The eligible cue that is granted leaves its programme at most 1 staged entry (R90). -/
theorem grantCue (h : s.StagedKept) {e : Cue} (he : s.eligible e = true) : (s.grantCue e).StagedKept := by
  obtain ⟨-, -, hroom⟩ := eligible_iff.mp he
  refine ⟨h.atMostTwo, fun f e' hf he' => ?_⟩
  cases hf
  cases he'
  exact ⟨rfl, fun _ => Nat.le_of_lt_succ hroom⟩

theorem grantNext (h : s.StagedKept) : s.grantNext.StagedKept := by
  have hother {u : State} {f : InFlight} (hgains : u.gains = s.gains) (hf : u.engine = some f)
      (hop : ∀ e, f.op ≠ .cue e) : u.StagedKept :=
    ⟨fun p => by rw [hgains]; exact h.atMostTwo p, fun g e hg he => by rw [hf] at hg; cases hg; exact absurd he (hop e)⟩
  have hsets {u : State} (hu : u.StagedKept) (hgains : u.gains = s.gains) : u.grantSets.StagedKept := by
    unfold State.grantSets
    split
    · exact hother hgains rfl (by simp)
    · exact hother hgains rfl (by simp)
    · exact hu
  have haborted : s.abortDirectives.StagedKept := h.congr rfl rfl
  unfold State.grantNext
  dsimp only
  split
  · exact hother rfl rfl (by simp)
  · next e _ he => exact haborted.grantCue (List.find?_some he)
  · unfold State.grantProbeOrSets
    split
    · split
      · exact hsets (haborted.congr rfl rfl) rfl
      · exact hother rfl rfl (by simp)
    · exact hsets haborted rfl

theorem closeEffects (h : s.StagedKept) (p : Prog) : (s.closeEffects p).StagedKept := by
  refine h.mono (.of_set (p := p) (g := s.gains[p].closed) ?_ (Nat.zero_le _)) (closeEffects_sameOperation s p)
  simp [State.closeEffects, State.tearDown]

/-- What each request row does to the staged lists. -/
theorem request {i : Instr} {code : Nat} {handle : Cell → State → State} (hrow : IsRequest i code handle) (c : Cell)
    (h : s.StagedKept) : (handle c s).StagedKept := by
  cases hrow
  case openProgramme =>
    unfold openRequest
    (repeat' split) <;> try exact h.congr rfl rfl
    next q p _ _ _ =>
      exact h.mono (.of_set (p := p) (g := s.gains[p].opened _) rfl le_rfl) (.of_eq rfl)
  case closeProgramme =>
    unfold closeRequest
    split
    · exact h.congr rfl rfl
    · split
      · next p _ _ => exact (h.closeEffects p).congr (by simp) (by simp)
      · exact h.congr rfl rfl
  case cuePost =>
    unfold postCue
    dsimp only
    (repeat' split) <;> try exact h.congr rfl rfl
    exact h.mono (.of_eq (by simp)) (.trans (insertPosted_sameOperation s _ _) (.of_eq rfl))
  case profileExchange =>
    unfold requestExchange
    split <;> first | exact h.mono (.of_eq (by simp)) (joinDirective_sameOperation s c _ _) | exact h.congr rfl rfl
  case gainForce =>
    unfold requestForce
    split <;> first | exact h.mono (.of_eq (by simp)) (joinDirective_sameOperation s c _ _) | exact h.congr rfl rfl
  case gainRelease =>
    unfold requestRelease
    split <;> first | exact h.mono (.of_eq (by simp)) (joinDirective_sameOperation s c _ _) | exact h.congr rfl rfl
  case restart => exact of_idle rfl fun p => by simp [restartPart, GainRecord.reset]
  all_goals exact h.congr (by simp) (by simp)

theorem gainBoundary (h : s.StagedKept) (t : LinkTime) (entry : Bool) : (s.gainBoundary t entry).StagedKept := by
  refine h.mono (fun p => ?_) (gainBoundary_sameOperation s t entry)
  have hrecord : (s.gainBoundary t entry).gains[p] = s.gainAfterBoundary t entry p := by simp [State.gainBoundary]
  rw [hrecord, State.gainAfterBoundary]
  split
  · exact boundaryWork_staged_length _ _ _ _ _
  · exact le_rfl

theorem frameCheck (h : s.StagedKept) (x : Samples) : (s.frameCheck x).StagedKept := by
  refine h.mono (fun p => ?_) (.of_eq (by simp))
  rw [State.frameCheck, State.setGains_gains, getElem_ofFn_prog]
  split <;> exact le_rfl

theorem gainDeparture (h : s.StagedKept) : s.gainDeparture.StagedKept := by
  refine h.mono (fun p => ?_) (.of_eq (by simp))
  rw [State.gainDeparture, State.setGains_gains, getElem_ofFn_prog]
  split <;> exact le_rfl

end State.StagedKept

theorem stagedKept_kept : KeptByCommands State.StagedKept where
  link e h := by rw [e]; exact h.congr rfl rfl
  countError _ h := h.congr rfl rfl
  arrive _ h := h.congr (by simp) (by simp)
  report _ h := h.congr (by simp) (by simp)
  windows h := h.congr (by simp) (by simp)
  finish _ hf h := h.finish hf
  swap h := h.congr (by simp) (by simp)
  count _ h := h.mono (.of_eq (by simp)) (countBoundary_sameOperation _)
  due t h := h.mono (.of_eq (by simp)) (dueCheck_sameOperation _ t)
  meter _ _ h := h.congr (by simp) (by simp)
  meterSettling h := h.congr (by simp) (by simp)
  gain t entry h := h.gainBoundary t entry
  accumulate h := h.congr (by simp) (by simp)
  check x h := h.frameCheck x
  meterDeparture h := h.congr (by simp) (by simp)
  gainDeparture h := h.gainDeparture
  pinReset x := .of_idle rfl fun p => by simp [State.afterReset, GainRecord.reset]
  take h := h.congr (by simp) (by simp)
  refused _ _ _ h := h.congr rfl rfl
  request _ _ _ c hrow _ h := h.request hrow c
  grant _ h := h.grantNext

/-- Settles O56: what every command keeps, for the queues and for the staged lists. -/
theorem stepsKeepTheLimits : Obligations.StepsKeepTheLimits :=
  fun _ _ e => ⟨withinLimits_kept.step e, stagedKept_kept.step e⟩

end Sys2Proof.Machine
end

/-! ## What names a programme: slots, sets, cues, staged entries and owed segments (R27, R37, R91, R92, R115, R136) -/

section
namespace Sys2Proof.Machine

/-! ### Programmes that stay open -/

/-- A programme is UNUSED after exactly where it was before: every change of a record but OPEN, CLOSE and a reset. -/
theorem sameOpen_rule (s : State) :
    RecordRule .grant fun p r => s.progs[p].state = .unused ↔ r.state = .unused where
  same p r r' hst _ h := by rw [hst]; exact h
  report p r q l hst h := by
    have : (r.report q l).state = r.state := rfl
    unfold ProgRecord.afterReport ProgRecord.toState presenceState
    rw [h]
    (repeat' split) <;> simp_all
  move p r st hst hto h := by
    rw [h, ProgRecord.toState_eq]
    refine iff_of_false hst ?_
    dsimp only
    rcases hto with rfl | rfl | rfl
    · decide
    · decide
    · cases r.presence <;> decide
  opens h := by cases h
  closes h := by cases h
  resets h := by rcases h with ⟨_, h⟩ | h <;> cases h

theorem allRecords_sameOpen (s : State) : s.AllRecords fun p r => s.progs[p].state = .unused ↔ r.state = .unused :=
  fun _ => Iff.rfl

theorem opened_of_records {s t : State} (h : t.AllRecords fun p r => s.progs[p].state = .unused ↔ r.state = .unused)
    (p : Prog) : t.opened p = s.opened p := by
  rw [Bool.eq_iff_iff, opened_iff, opened_iff, not_iff_not]
  exact (h p).symm

theorem opened_of_progs {s t : State} (h : t.progs = s.progs) (p : Prog) : t.opened p = s.opened p := by
  rw [State.opened, State.opened, h]

theorem settleWindows_opened (s : State) (p : Prog) : s.settleWindows.opened p = s.opened p :=
  opened_of_records ((allRecords_sameOpen s).settleWindows (sameOpen_rule s)) p

theorem meterSettling_opened (s : State) (p : Prog) : s.meterSettling.opened p = s.opened p :=
  opened_of_records ((allRecords_sameOpen s).meterSettling (sameOpen_rule s)) p

theorem completeOperation_opened (s : State) (p : Prog) : s.completeOperation.opened p = s.opened p :=
  opened_of_records ((allRecords_sameOpen s).onEngine (sameOpen_rule s) _) p

theorem finish_opened {s : State} {f : InFlight} (hf : s.engine = some f) (p : Prog) :
    (s.finish f operationEffects).opened p = s.opened p := by
  have hdone : s.completeOperation = s.finish f operationEffects := onEngine_of hf rfl operationEffects
  rw [← hdone]
  exact completeOperation_opened s p

theorem settleBeforeBoundary_opened (s : State) (p : Prog) : s.settleBeforeBoundary.opened p = s.opened p :=
  opened_of_records ((allRecords_sameOpen s).settleBeforeBoundary (sameOpen_rule s)) p

/-! ### The state of a programme through the teardown of a CLOSE -/

theorem closeEffects_opened (s : State) (p q : Prog) :
    (s.closeEffects p).opened q = if p = q then false else s.opened q := by
  have hprogs : (s.closeEffects p).progs = (s.startHeldSegment p).progs.set p (s.startHeldSegment p).progs[p].closed := by
    simp [State.closeEffects, State.tearDown]
  have hstate : (s.startHeldSegment p).progs[q].state = s.progs[q].state := by
    by_cases hheld : ProgSet.mem (s.heldStarts.getD 0) p = true
    · have hstart : s.startHeldSegment p = s.startSegment p := if_pos hheld
      rw [hstart, State.startSegment_progs, getElem_set_prog]
      split
      · next hpq => rw [hpq]
      · rfl
    · have hkeep : s.startHeldSegment p = s := if_neg hheld
      rw [hkeep]
  rw [State.opened, hprogs, getElem_set_prog]
  split
  · rfl
  · rw [hstate]; rfl

/-! ### The slots of a programme (R25 to R27, R30) -/

/-- The member list under another slot map. -/
theorem members_length_le {s t : State} {p : Prog}
    (h : ∀ i : SlotNo, t.slots[i].owner = some p → s.slots[i].owner = some p) : (t.members p).length ≤ (s.members p).length := by
  refine List.Sublist.length_le (List.monotone_filter_right _ fun i hi => ?_)
  simpa using h i (by simpa using hi)

theorem length_filter_le_add {α : Type} {a b c : α → Bool} (l : List α) (h : ∀ x, a x = true → b x = true ∨ c x = true) :
    (l.filter a).length ≤ (l.filter b).length + (l.filter c).length := by
  induction l with
  | nil => exact Nat.zero_le _
  | cons x l ih =>
    have hx := h x
    simp only [List.filter_cons]
    split_ifs <;> simp_all only [List.length_cons] <;> first | omega | simp at hx

theorem members_eq_nil_iff {s : State} {p : Prog} : s.members p = [] ↔ ∀ i : SlotNo, s.slots[i].owner ≠ some p := by
  simp [State.members, allSlots]

namespace State.SlotsKept

variable {s t : State}

/-- The slots stay in their limits where no programme gains one and none in use is made UNUSED with slots. -/
theorem mono (h : s.SlotsKept) (hslots : ∀ (p : Prog) (i : SlotNo), t.slots[i].owner = some p → s.slots[i].owner = some p)
    (hopened : ∀ p, t.opened p = false → s.opened p = false ∨ t.members p = []) : t.SlotsKept where
  atMostEight p := (members_length_le (hslots p)).trans (h.atMostEight p)
  closedHasNone p hp := by
    obtain hs | hnone := hopened p hp
    · have hold := members_eq_nil_iff.mp (h.closedHasNone p hs)
      exact members_eq_nil_iff.mpr fun i hi => hold i (hslots p i hi)
    · exact hnone

theorem congr (h : s.SlotsKept) (hslots : t.slots = s.slots) (hopened : ∀ p, t.opened p = s.opened p) : t.SlotsKept :=
  h.mono (fun p i hi => by rw [← hslots]; exact hi) fun p hp => .inl (by rw [← hopened]; exact hp)

theorem congr_eq (h : s.SlotsKept) (hslots : t.slots = s.slots) (hprogs : t.progs = s.progs) : t.SlotsKept :=
  h.congr hslots (opened_of_progs hprogs)

theorem closeEffects (h : s.SlotsKept) (p : Prog) : (s.closeEffects p).SlotsKept := by
  have hslot (i : SlotNo) : (s.closeEffects p).slots[i] = if s.slots[i].owner = some p then .pass else s.slots[i] := by
    simp [State.closeEffects, State.tearDown]
  refine h.mono (fun q i hi => ?_) fun q hq => ?_
  · rw [hslot] at hi
    split at hi
    · cases hi
    · exact hi
  · rw [closeEffects_opened] at hq
    split at hq
    · next hpq =>
      refine .inr (members_eq_nil_iff.mpr fun i hi => ?_)
      rw [hslot] at hi
      split at hi
      · cases hi
      · next hne => exact hne (hpq ▸ hi)
    · exact .inl hq

/-- A slot map keeps the limits where it gives slots to a programme in use alone and leaves it with at most 8 (R29). -/
theorem mapSlots (h : s.SlotsKept) {first count : Nat} {m : MapMode} {p : Prog}
    (hopen : m.gives = true → s.opened p = true)
    (hroom : m.gives = true →
      (s.members p).length + ((namedSlots first count).filter fun i => s.slots[i].owner != some p).length ≤ 8)
    (hslots : t.slots = s.mapSlots first count m p) (hopened : ∀ q, t.opened q = s.opened q) : t.SlotsKept := by
  have hslot (i : SlotNo) : t.slots[i] = if first ≤ i ∧ (i : Nat) < first + count then m.entry p else s.slots[i] := by
    rw [hslots, mapSlots_getElem]
  have howner (q : Prog) : (m.entry p).owner = some q ↔ m.gives = true ∧ q = p := by
    cases m <;> simp [MapMode.entry, MapMode.gives, SlotEntry.owner, eq_comm]
  have hothers {q : Prog} (hq : ¬(m.gives = true ∧ q = p)) (i : SlotNo) (hi : t.slots[i].owner = some q) :
      s.slots[i].owner = some q := by
    rw [hslot] at hi
    split at hi
    · exact absurd ((howner q).mp hi) hq
    · exact hi
  refine ⟨fun q => ?_, fun q hq => ?_⟩
  · by_cases hgiven : m.gives = true ∧ q = p
    · obtain ⟨hgives, rfl⟩ := hgiven
      have hsplit : (t.members q).length ≤ (s.members q).length +
          ((namedSlots first count).filter fun i => s.slots[i].owner != some q).length := by
        rw [State.members, State.members, namedSlots, List.filter_filter]
        refine length_filter_le_add _ fun i hi => ?_
        simp only [beq_iff_eq, bne_iff_ne, Bool.and_eq_true, decide_eq_true_eq] at hi ⊢
        rw [hslot] at hi
        split at hi
        · next hin => exact (em _).imp_right fun hne => ⟨hne, hin⟩
        · exact .inl hi
      exact hsplit.trans (hroom hgives)
    · exact (members_length_le (hothers hgiven)).trans (h.atMostEight q)
  · have hclosed : s.opened q = false := by rw [← hopened]; exact hq
    have hgiven : ¬(m.gives = true ∧ q = p) := by
      rintro ⟨hgives, rfl⟩
      rw [hopen hgives] at hclosed
      cases hclosed
    have hold := members_eq_nil_iff.mp (h.closedHasNone q hclosed)
    exact members_eq_nil_iff.mpr fun i hi => hold i (hothers hgiven i hi)

end State.SlotsKept
end Sys2Proof.Machine
end

/-! ## What a request can do, row by row, told as what a property of the state after it has to be shown for -/

section
namespace Sys2Proof.Machine

/-- An accepted SLOT_MAP writes the slot map and a generation (R30). -/
@[simp] theorem mapped_frame (s : State) (first count : Nat) (m : MapMode) (p : Prog) :
    (s.mapped first count m p).straps = s.straps ∧ (s.mapped first count m p).rx = s.rx ∧
    (s.mapped first count m p).tx = s.tx ∧ (s.mapped first count m p).delay = s.delay ∧
    (s.mapped first count m p).meters = s.meters ∧ (s.mapped first count m p).heldStarts = s.heldStarts ∧
    (s.mapped first count m p).profiles = s.profiles ∧ (s.mapped first count m p).laws = s.laws ∧
    (s.mapped first count m p).lawMark = s.lawMark ∧ (s.mapped first count m p).arbiter = s.arbiter ∧
    (s.mapped first count m p).engine = s.engine ∧ (s.mapped first count m p).cues = s.cues ∧
    (s.mapped first count m p).owed = s.owed ∧ (s.mapped first count m p).gains = s.gains ∧
    (s.mapped first count m p).cells = s.cells ∧ (s.mapped first count m p).notice = s.notice ∧
    (s.mapped first count m p).fresh = s.fresh ∧ (s.mapped first count m p).pending = s.pending := by
  simp only [State.mapped, and_self]

theorem mapped_progs (s : State) (first count : Nat) (m : MapMode) (p : Prog) : (s.mapped first count m p).progs =
    if s.mapAffects (s.mapSlots first count m p) p then
      s.progs.set p { s.progs[p] with generation := s.progs[p].generation + 1 }
    else s.progs := by
  simp only [State.mapped]

/-- PROFILE_WRITE, LAW_LOAD and the other request rows: the refusals and mere answers, and then one field for each effect. -/
structure RequestCases (P : State → Prop) (s : State) (c : Cell) : Prop where
  answered : ∀ st n payload, P (s.answerCount c st n payload)
  read : ∀ st n payload, P (s.draw.answerCount c st n payload)
  writes : ∀ q, (∀ p, ¬s.UsesProfile q p) → firstBadField (Cell.profileFields c) = none →
    P ((s.setProfiles (s.profiles.set q (profileRecord (Cell.profileFields c)))).answer c .done [])
  loads : ∀ k, firstBadPoint (Cell.loadPoints c) (Cell.index c) = none → Cell.CountFits c → ¬s.ShadowTaken k →
    P ((s.setLaws (s.laws.set k (s.laws[k].loaded c))).answer c .done [])
  swaps : ∀ set : Byte, (∀ t : TableNo, set.getLsbD t = true → s.laws[t].pending = false ∧ s.laws[t].shadow.valid = true) →
    P ((s.setLaws (Vector.ofFn fun t : TableNo =>
      if set.getLsbD t then { s.laws[t] with pending := true } else s.laws[t])).answer c .done [])
  maps : ∀ m p, (m.gives = true → s.opened p = true) →
    (m.gives = true → s.membersAfter (Cell.index c) (Cell.count c) p ≤ 8) →
    P ((s.mapped (Cell.index c) (Cell.count c) m p).answer c .done [])
  opens : ∀ p q, s.progs[p].state = .unused → P ((s.openEffects p q).answer c .done [])
  closes : ∀ p, s.progs[p].state ≠ .unused → P ((s.closeEffects p).answer c .done [])
  posts : ∀ p o, s.progs[p].state ≠ .unused → Cell.cueOperands c = some o → ¬s.PostMeetsDue p (dueBlock o.time) →
    ¬s.PostFindsNoPlace p (dueBlock o.time) → P (s.acceptPost c p o)
  withdraws : ∀ p d n, P ((s.setCues (s.cues.filter fun e => !Cue.names p d e)).answer c .done [n])
  joins : ∀ op p, P (s.joinDirective c op p)
  probes : ∀ p q, s.arbiter.probe = none → P { s with
    cells := { s.cells with inHand := none }
    arbiter := { s.arbiter with probe := some { prog := p, profile := q, reply := Cell.reply c, abort := false } } }
  presences : P (readPresence c s)
  marks : ∀ p, s.progs[p].state ≠ .unused → P ((s.setMeter p { s.meters[p] with resetMark := true }).answer c .done [])
  participates : ∀ (retune rescale : Bool) n, P ((s.setArbiter { s.arbiter with
      retuneOn := retune, rescaleOn := rescale
      retune := if s.arbiter.retuneOn && !retune then 0 else s.arbiter.retune
      rescale := if s.arbiter.rescaleOn && !rescale then 0 else s.arbiter.rescale }).answer c .done [n])
  notices : ∀ n, P ((s.setNotice n).answer c .done [])
  restarts : P (restartPart c s)

namespace RequestCases

variable {P : State → Prop} {s : State} {c : Cell} (H : RequestCases P s c)
include H

theorem answer (st : Status) (payload : List Byte) : P (s.answer c st payload) := H.answered st _ payload

theorem readTable : P (readTable c s) := by
  unfold Machine.readTable
  split
  · exact H.answer _ _
  · split
    · exact H.answer _ _
    · split
      · exact H.answer _ _
      · dsimp only
        split
        · exact H.answer _ _
        · exact H.read _ _ _

theorem writeProfile : P (writeProfile c s) := by
  unfold Machine.writeProfile
  split
  · exact H.answer _ _
  · next q _ =>
    split
    · exact H.answer _ _
    · next hfind =>
      split
      · exact H.answer _ _
      · next hgood =>
        refine H.writes q (fun p hp => ?_) hgood
        exact List.find?_eq_none.mp hfind p (List.mem_finRange p) (usesProfile_iff.mpr hp)

theorem loadLaw : P (loadLaw c s) := by
  cases htable : tableOf (Cell.target c) with
  | none =>
    rw [Machine.loadLaw, htable]
    exact H.answer _ _
  | some k =>
    rw [Machine.loadLaw, htable]
    dsimp only
    split
    · exact H.answer _ _
    · split
      · exact H.answer _ _
      · split
        · exact H.answer _ _
        · exact H.answer _ _
        · next hgood hcount =>
          split
          · exact H.answer _ _
          · next hpending =>
            split
            · exact H.answer _ _
            · next hmark =>
              refine H.loads k hgood (fun n hn => ?_) (not_or.mpr ⟨hpending, hmark⟩)
              have hsome : Cell.newCount c = some n.toNat := congrArg (Option.map BitVec.toNat) hn
              rw [hsome, Option.filter_eq_none_iff] at hcount
              simpa using hcount n.toNat rfl

theorem swapLaws : P (swapLaws c s) := by
  unfold Machine.swapLaws
  split
  · exact H.answer _ _
  · next set _ =>
    dsimp only
    split
    · exact H.answer _ _
    · split
      · exact H.answer _ _
      · split
        · exact H.answer _ _
        · exact H.answer _ _
        · next hpending hvalid =>
          refine H.swaps set fun t ht => ?_
          have hnamed : t ∈ allTables.filter fun t : TableNo => set.getLsbD t :=
            List.mem_filter.mpr ⟨List.mem_finRange t, ht⟩
          exact ⟨by simpa using List.find?_eq_none.mp hpending t hnamed, by simpa using List.find?_eq_none.mp hvalid t hnamed⟩

theorem mapRequest : P (mapRequest c s) := by
  by_cases hbad : Cell.count c < 1 ∨ 16 < Cell.count c ∨ Cell.mapMode c = none
  · rw [mapRequest_badValue hbad]
    exact H.answer _ _
  · obtain ⟨hlow, hhigh, hmode⟩ : 1 ≤ Cell.count c ∧ Cell.count c ≤ 16 ∧ Cell.mapMode c ≠ none := by
      simpa only [not_or, not_lt] using hbad
    obtain ⟨m, hm⟩ := Option.ne_none_iff_exists'.mp hmode
    by_cases hindex : 63 < Cell.index c ∨ 64 < Cell.index c + Cell.count c ∨ Cell.programme c = none
    · rw [mapRequest_badIndex hlow hhigh hm hindex]
      exact H.answer _ _
    · obtain ⟨-, hrange, hprog⟩ : ¬63 < Cell.index c ∧ Cell.index c + Cell.count c ≤ 64 ∧ Cell.programme c ≠ none := by
        simpa only [not_or, not_lt] using hindex
      obtain ⟨p, hp⟩ := Option.ne_none_iff_exists'.mp hprog
      rw [mapRequest_of_named hlow hhigh hm hrange hp]
      split
      · exact H.answer _ _
      · next hopen =>
        split
        · exact H.answer _ _
        · next hfree =>
          refine H.maps m p (fun hgives => (opened_iff s p).mpr fun hp => hopen ⟨hgives, hp⟩) fun hgives => ?_
          exact not_lt.mp fun hfull => hfree (.inr ⟨hgives, hfull⟩)

theorem openRequest : P (openRequest c s) := by
  unfold Machine.openRequest
  split
  · exact H.answer _ _
  · exact H.answer _ _
  · next q p _ _ =>
    split
    · exact H.answer _ _
    · next hopen => exact H.opens p q (by simpa [opened_iff] using hopen)

theorem closeRequest : P (closeRequest c s) := by
  unfold Machine.closeRequest
  split
  · exact H.answer _ _
  · next p _ =>
    split
    · next hopen => exact H.closes p ((opened_iff s p).mp hopen)
    · exact H.answer _ _

theorem postCue : P (postCue c s) := by
  cases hprog : Cell.programme c with
  | none =>
    rw [postCue_badIndex hprog]
    exact H.answer _ _
  | some p =>
    by_cases hunused : s.progs[p].state = .unused
    · rw [postCue_unused hprog hunused]
      exact H.answer _ _
    · cases hoperands : Cell.cueOperands c with
      | none =>
        rw [postCue_badValue hprog hunused hoperands]
        exact H.answer _ _
      | some o =>
        rw [postCue_of_operands hprog hunused hoperands]
        split
        · exact H.answer _ _
        · split
          · exact H.answer _ _
          · split
            · exact H.answer _ _
            · next hdue =>
              split
              · exact H.answer _ _
              · next hplace => exact H.posts p o hunused hoperands hdue hplace

theorem withdrawCue : P (withdrawCue c s) := by
  unfold Machine.withdrawCue
  split
  · exact H.answer _ _
  · exact H.answer _ _
  · split
    · exact H.answer _ _
    · dsimp only
      split
      · exact H.answer _ _
      · exact H.withdraws _ _ _

theorem requestExchange : P (requestExchange c s) := by
  unfold Machine.requestExchange
  split
  · exact H.answer _ _
  · exact H.joins _ _
  · exact H.answer _ _

theorem requestForce : P (requestForce c s) := by
  unfold Machine.requestForce
  split
  · exact H.answer _ _
  · exact H.joins _ _
  · exact H.answer _ _

theorem requestRelease : P (requestRelease c s) := by
  unfold Machine.requestRelease
  split
  · exact H.answer _ _
  · exact H.joins _ _

theorem requestProbe : P (requestProbe c s) := by
  unfold Machine.requestProbe
  split
  · exact H.answer _ _
  · exact H.answer _ _
  · next p q _ _ =>
    split
    · exact H.answer _ _
    · next hfree => exact H.probes p q (by simpa using hfree)

theorem resetSegment : P (resetSegment c s) := by
  unfold Machine.resetSegment
  split
  · exact H.answer _ _
  · next p _ =>
    split
    · next hopen => exact H.marks p ((opened_iff s p).mp hopen)
    · exact H.answer _ _

theorem setParticipation : P (setParticipation c s) := by
  unfold Machine.setParticipation
  split
  · exact H.participates _ _ _
  · exact H.answer _ _

theorem clearConditions : P (clearConditions c s) := by
  unfold Machine.clearConditions
  split
  · exact H.answer _ _
  · exact H.notices _

theorem setNotice : P (Machine.setNotice c s) := by
  unfold Machine.setNotice
  split
  · split
    · exact H.answer _ _
    · exact H.notices _
  · exact H.answer _ _

/-- A request row, whichever it is. -/
theorem request {i : Instr} {code : Nat} {handle : Cell → State → State} (hrow : IsRequest i code handle) :
    P (handle c s) := by
  cases hrow with
  | ident | conditionsRead => exact H.answer _ _
  | read => exact H.readTable
  | profileWrite => exact H.writeProfile
  | lawLoad => exact H.loadLaw
  | lawSwap => exact H.swapLaws
  | slotMap => exact H.mapRequest
  | openProgramme => exact H.openRequest
  | closeProgramme => exact H.closeRequest
  | cuePost => exact H.postCue
  | cueWithdraw => exact H.withdrawCue
  | profileExchange => exact H.requestExchange
  | gainForce => exact H.requestForce
  | gainRelease => exact H.requestRelease
  | probe => exact H.requestProbe
  | presenceRead => exact H.presences
  | segmentReset => exact H.resetSegment
  | participate => exact H.setParticipation
  | conditionsClear => exact H.clearConditions
  | noticeSet => exact H.setNotice
  | restart => exact H.restarts

end RequestCases
end Sys2Proof.Machine
end

/-! ## The slots and the Cue Queue through every command (R27, R115) -/

section
namespace Sys2Proof.Machine

/-! ### The slots -/

theorem openEffects_opened (s : State) (p q : Prog) (k : ProfileNo) :
    (s.openEffects p k).opened q = if p = q then true else s.opened q := by
  rw [State.opened, State.openEffects, getElem_set_prog]
  split <;> rfl

theorem mapped_opened (s : State) (first count : Nat) (m : MapMode) (p q : Prog) :
    (s.mapped first count m p).opened q = s.opened q := by
  rw [State.opened, mapped_progs]
  split
  · rw [getElem_set_prog]
    split
    · next hpq => rw [← hpq]; rfl
    · rfl
  · rfl

theorem readPresence_opened (c : Cell) (s : State) (q : Prog) : (readPresence c s).opened q = s.opened q := by
  have hprogs : (readPresence c s).progs = Vector.ofFn fun p : Prog => { s.progs[p] with reference := s.progs[p].presence } := rfl
  rw [State.opened, hprogs, getElem_ofFn_prog]
  rfl

namespace State.SlotsKept

variable {s : State}

theorem request {i : Instr} {code : Nat} {handle : Cell → State → State} (hrow : IsRequest i code handle) (c : Cell)
    (h : s.SlotsKept) : (handle c s).SlotsKept := by
  have hanswer {u : State} (st : Status) (payload : List Byte) (hu : u.SlotsKept) : (u.answer c st payload).SlotsKept :=
    hu.congr_eq (by rfl) (by rfl)
  have hsame (t : State) (hslots : t.slots = s.slots) (hprogs : t.progs = s.progs) : t.SlotsKept := h.congr_eq hslots hprogs
  refine RequestCases.request (P := State.SlotsKept) ?_ hrow
  exact
    { answered := fun st n payload => hsame _ (by rfl) (by rfl)
      read := fun st n payload => hsame _ (by rfl) (by rfl)
      writes := fun q _ _ => hsame _ (by rfl) (by rfl)
      loads := fun k _ _ _ => hsame _ (by rfl) (by rfl)
      swaps := fun set _ => hsame _ (by rfl) (by rfl)
      maps := fun m p hopen hroom => hanswer _ _ (h.mapSlots hopen hroom rfl (mapped_opened s _ _ m p))
      opens := fun p q _ => by
        refine hanswer _ _ (h.mono (fun _ _ hi => hi) fun r hr => .inl ?_)
        rw [openEffects_opened] at hr
        split at hr
        · cases hr
        · exact hr
      closes := fun p _ => hanswer _ _ (h.closeEffects p)
      posts := fun p o _ _ _ _ => hsame _ (by simp [State.acceptPost]) (by simp [State.acceptPost])
      withdraws := fun p d n => hsame _ (by rfl) (by rfl)
      joins := fun op p => hsame _ (by simp) (by simp)
      probes := fun p q _ => hsame _ (by rfl) (by rfl)
      presences := h.congr (by simp [readPresence]) (readPresence_opened c s)
      marks := fun p _ => hsame _ (by rfl) (by rfl)
      participates := fun retune rescale n => hsame _ (by rfl) (by rfl)
      notices := fun n => hsame _ (by rfl) (by rfl)
      restarts := by
        have hnone (p : Prog) : (restartPart c s).members p = [] :=
          members_eq_nil_iff.mpr fun i => by simp [restartPart, SlotEntry.owner]
        exact ⟨fun p => by simp [hnone], fun p _ => hnone p⟩ }

theorem afterReset (x : Straps) : (State.afterReset x).SlotsKept := by
  have hnone (p : Prog) : (State.afterReset x).members p = [] :=
    members_eq_nil_iff.mpr fun i => by simp [State.afterReset, SlotEntry.owner]
  exact ⟨fun p => by simp [hnone], fun p _ => hnone p⟩

end State.SlotsKept

/-- Every piece of a command's work keeps the slots in their limits. -/
theorem slotsKept_kept : KeptByCommands State.SlotsKept where
  link {s t} e h := by rw [e]; exact h.congr_eq (by rfl) (by rfl)
  countError n h := h.congr_eq (by rfl) (by rfl)
  arrive c h := h.congr_eq (by simp) (by simp)
  report source h := h.congr_eq (by simp) (by simp)
  windows {s} h := h.congr (by simp) (settleWindows_opened s)
  finish {s} f hf h := h.congr (by simp) (finish_opened hf)
  swap h := h.congr_eq (by simp) (by simp)
  count _ h := h.congr_eq (by simp) (by simp)
  due t h := h.congr_eq (by simp) (by simp)
  meter starts entry h := h.congr_eq (by simp) (by simp)
  meterSettling {s} h := h.congr (by simp) (meterSettling_opened s)
  gain t entry h := h.congr_eq (by simp) (by simp)
  accumulate h := h.congr_eq (by simp) (by simp)
  check x h := h.congr_eq (by simp) (by simp)
  meterDeparture h := h.congr_eq (by simp) (by simp)
  gainDeparture h := h.congr_eq (by simp) (by simp)
  pinReset := State.SlotsKept.afterReset
  take h := h.congr_eq (by simp) (by simp)
  refused c st _ h := h.congr_eq (by rfl) (by rfl)
  request i code handle c hrow _ h := h.request hrow c
  grant _ h := h.congr_eq (by simp) (by simp)

end Sys2Proof.Machine
end

/-! ## The Cue Queue and what names a programme, through every command (R37, R91, R92, R115, R136) -/

section
namespace Sys2Proof.Machine

/-! ### Grants, told as what each of their parts keeps (R93, R94) -/

/-- A property that each part of the arbiter's test keeps. -/
structure KeptByGrants (P : State → Prop) : Prop where
  abort : ∀ {s}, P s → P s.abortDirectives
  dropProbe : ∀ {s} r, P s → P ((s.setArbiter { s.arbiter with probe := none }).fill r .aborted [])
  directive : ∀ {s} (d : Directive) rest, P s → P ((s.setArbiter { s.arbiter with directives := rest }).beginOperation
    (.directive d.op d.reply) d.prog none none)
  cue : ∀ {s} e, s.eligible e = true → P s → P (s.grantCue e)
  probe : ∀ {s} e, P s → P (s.grantProbe e)
  rescale : ∀ {s} p, P s → P ((s.setArbiter { s.arbiter with
    rescale := ProgSet.erase s.arbiter.rescale p, rescalePointer := some p }).grantAutomatic .rescale p)
  retune : ∀ {s} p, P s → P ((s.setArbiter { s.arbiter with
    retune := ProgSet.erase s.arbiter.retune p, retunePointer := some p }).grantAutomatic .retune p)

namespace KeptByGrants

variable {P : State → Prop} (H : KeptByGrants P) {s : State}
include H

theorem grantSets (h : P s) : P s.grantSets := by
  unfold State.grantSets
  split
  · exact H.rescale _ h
  · exact H.retune _ h
  · exact h

theorem grantProbeOrSets (h : P s) : P s.grantProbeOrSets := by
  unfold State.grantProbeOrSets
  split
  · next e _ =>
    split
    · exact H.grantSets (H.dropProbe e.reply h)
    · exact H.probe e h
  · exact H.grantSets h

theorem grantNext (h : P s) : P s.grantNext := by
  have haborted : P s.abortDirectives := H.abort h
  unfold State.grantNext
  dsimp only
  split
  · next d rest _ => exact H.directive d rest haborted
  · next e _ he => exact H.cue e (List.find?_some he) haborted
  · exact H.grantProbeOrSets haborted

end KeptByGrants

/-! ### The scan of R119 -/

/-- A cue inserted goes before the first entry whose due block is after its own. -/
theorem insertCue_eq (new : Cue) (l : List Cue) : insertCue new l =
    l.takeWhile (fun e => !after e.block new.block) ++ new :: l.dropWhile (fun e => !after e.block new.block) := by
  induction l with
  | nil => rfl
  | cons c rest ih =>
    unfold insertCue
    cases hc : after c.block new.block with
    | true => simp [hc]
    | false => simp [hc, ih]

theorem insertCue_perm (new : Cue) (l : List Cue) : (insertCue new l).Perm (new :: l) := by
  rw [insertCue_eq]
  refine List.perm_middle.trans (List.Perm.of_eq ?_)
  rw [List.takeWhile_append_dropWhile]

/-- The entries that a post leaves in the queue: all but those of its programme and due block, none of which is DUE (R119). -/
theorem filter_not_replaced {s : State} {p : Prog} {d : LinkTime} (hdue : ¬s.PostMeetsDue p d) :
    (s.cues.filter fun c => !(Cue.names p d c && !c.due)) = s.cues.filter fun e => !Cue.names p d e := by
  refine List.filter_congr fun e he => ?_
  cases hnames : Cue.names p d e with
  | false => rfl
  | true =>
    obtain ⟨hprog, hblock⟩ := Cue.names_iff.mp hnames
    have hpending : e.due = false := Bool.eq_false_iff.mpr fun hd => hdue ⟨e, he, hprog, hblock, hd⟩
    simp [hpending]

theorem insertPosted_cues (s : State) (new : Cue) (replaced : Bool) (hdue : ¬s.PostMeetsDue new.prog new.block) :
    (s.insertPosted new replaced).cues = insertCue new (s.cues.filter fun e => !Cue.names new.prog new.block e) := by
  rw [← filter_not_replaced hdue]
  simp only [State.insertPosted, offerCues_frame, State.claimIf_cues]

/-! ### The Cue Queue (R115) -/

namespace State.CuesKept

variable {s t : State}

theorem congr (h : s.CuesKept) (hcues : t.cues = s.cues) : t.CuesKept :=
  ⟨by rw [hcues]; exact h.atMost32, by rw [hcues]; exact h.distinct⟩

theorem sublist (h : s.CuesKept) (hcues : t.cues.Sublist s.cues) : t.CuesKept :=
  ⟨hcues.length_le.trans h.atMost32, h.distinct.sublist hcues⟩

theorem of_nil (hcues : t.cues = []) : t.CuesKept := ⟨by rw [hcues]; exact Nat.zero_le _, by rw [hcues]; exact .nil⟩

theorem insertPosted (h : s.CuesKept) (new : Cue) (replaced : Bool) (hdue : ¬s.PostMeetsDue new.prog new.block)
    (hplace : ¬s.PostFindsNoPlace new.prog new.block) : (s.insertPosted new replaced).CuesKept := by
  have hperm := insertCue_perm new (s.cues.filter fun e => !Cue.names new.prog new.block e)
  have hsymm : Std.Symm fun a b : Cue => ¬(a.prog = b.prog ∧ a.block = b.block) :=
    ⟨fun _ _ h ⟨hp, hb⟩ => h ⟨hp.symm, hb.symm⟩⟩
  refine ⟨?_, ?_⟩
  · rw [insertPosted_cues s new replaced hdue, hperm.length_eq, List.length_cons]
    by_cases hroom : s.cues.length < 32
    · exact (Nat.succ_le_succ (List.length_filter_le _ _)).trans hroom
    · obtain ⟨e, he, hnames⟩ : ∃ e ∈ s.cues, e.prog = new.prog ∧ e.block = new.block := by
        by_contra hnone
        push Not at hnone
        exact hplace ⟨not_lt.mp hroom, fun e he ⟨hp, hb⟩ => hnone e he hp hb⟩
      have hremoved : (s.cues.filter fun e => !Cue.names new.prog new.block e).length < s.cues.length := by
        refine List.length_filter_lt_length_iff_exists.mpr ⟨e, he, ?_⟩
        simp [Cue.names_iff.mpr hnames]
      exact hremoved.trans_le h.atMost32
  · rw [insertPosted_cues s new replaced hdue, hperm.pairwise_iff (hsymm.symm _ _), List.pairwise_cons]
    refine ⟨fun e he ⟨hprog, hblock⟩ => ?_, h.distinct.sublist List.filter_sublist⟩
    have hnames := Cue.names_iff.mpr ⟨hprog.symm, hblock.symm⟩
    simp [hnames] at he

theorem request {i : Instr} {code : Nat} {handle : Cell → State → State} (hrow : IsRequest i code handle) (c : Cell)
    (h : s.CuesKept) : (handle c s).CuesKept := by
  have hsame (t : State) (hcues : t.cues = s.cues) : t.CuesKept := h.congr hcues
  refine RequestCases.request (P := State.CuesKept) ?_ hrow
  exact
    { answered := fun st n payload => hsame _ (by rfl)
      read := fun st n payload => hsame _ (by rfl)
      writes := fun q _ _ => hsame _ (by rfl)
      loads := fun k _ _ _ => hsame _ (by rfl)
      swaps := fun set _ => hsame _ (by rfl)
      maps := fun m p hopen hroom => hsame _ (by simp)
      opens := fun p q _ => hsame _ (by rfl)
      closes := fun p _ => h.sublist (by simp [State.closeEffects, State.tearDown, List.filter_sublist])
      posts := fun p o _ _ hdue hplace => (h.insertPosted (s.postedCue p o) _ hdue hplace).congr (by rfl)
      withdraws := fun p d n => h.sublist List.filter_sublist
      joins := fun op p => hsame _ (by simp)
      probes := fun p q _ => hsame _ (by rfl)
      presences := hsame _ (by simp [readPresence])
      marks := fun p _ => hsame _ (by rfl)
      participates := fun retune rescale n => hsame _ (by rfl)
      notices := fun n => hsame _ (by rfl)
      restarts := of_nil (by simp [restartPart]) }

theorem dueCheck (h : s.CuesKept) (t : LinkTime) : (s.dueCheck t).CuesKept := by
  have hcues : (s.dueCheck t).cues = s.cues.map (Cue.checkDue t) := by simp [State.dueCheck]
  have hname (c : Cue) : (c.checkDue t).prog = c.prog ∧ (c.checkDue t).block = c.block := by
    unfold Cue.checkDue
    split <;> exact ⟨rfl, rfl⟩
  refine ⟨by rw [hcues, List.length_map]; exact h.atMost32, ?_⟩
  rw [hcues, List.pairwise_map]
  refine h.distinct.imp fun {a b} hab => ?_
  rw [(hname a).1, (hname a).2, (hname b).1, (hname b).2]
  exact hab

theorem grants : KeptByGrants State.CuesKept where
  abort h := h.congr rfl
  dropProbe _ h := h.congr rfl
  directive _ _ h := h.congr rfl
  cue _ _ h := h.sublist List.erase_sublist
  probe _ h := h.congr rfl
  rescale _ h := h.congr rfl
  retune _ h := h.congr rfl

end State.CuesKept

/-- Every piece of a command's work keeps the Cue Queue in its limit and its entries apart. -/
theorem cuesKept_kept : KeptByCommands State.CuesKept where
  link e h := by rw [e]; exact h.congr rfl
  countError n h := h.congr rfl
  arrive c h := h.congr (by simp)
  report source h := h.congr (by simp)
  windows h := h.congr (by simp)
  finish f _ h := h.congr (by simp)
  swap h := h.congr (by simp)
  count _ h := h.congr (by simp)
  due t h := h.dueCheck t
  meter starts entry h := h.congr (by simp)
  meterSettling h := h.congr (by simp)
  gain t entry h := h.congr (by simp)
  accumulate h := h.congr (by simp)
  check x h := h.congr (by simp)
  meterDeparture h := h.congr (by simp)
  gainDeparture h := h.congr (by simp)
  pinReset x := .of_nil rfl
  take h := h.congr (by simp)
  refused c st _ h := h.congr rfl
  request i code handle c hrow _ h := h.request hrow c
  grant _ h := State.CuesKept.grants.grantNext h

end Sys2Proof.Machine
end

/-! ## The retune set and the rescale set through every command (R34, R91, R92) -/

section
namespace Sys2Proof.Machine

/-- Every member of the retune set and of the rescale set is TRACKING, and a set whose flag is off is empty (R91, R92). -/
structure State.SetsTrack (s : State) : Prop where
  retune : ∀ p : Prog, ProgSet.mem s.arbiter.retune p = true → s.tracking p = true ∧ s.arbiter.retuneOn = true
  rescale : ∀ p : Prog, ProgSet.mem s.arbiter.rescale p = true → s.tracking p = true ∧ s.arbiter.rescaleOn = true

/-- The two sets of the arbiter and their flags. -/
def Arbiter.sets (a : Arbiter) : ProgSet × ProgSet × Bool × Bool := (a.retune, a.rescale, a.retuneOn, a.rescaleOn)

section Sets

variable {a b : Arbiter} (h : b.sets = a.sets)
include h

theorem retune_of_sets : b.retune = a.retune := congrArg Prod.fst h
theorem rescale_of_sets : b.rescale = a.rescale := congrArg (fun x => x.2.1) h
theorem retuneOn_eq_of_sets : b.retuneOn = a.retuneOn := congrArg (fun x => x.2.2.1) h
theorem rescaleOn_eq_of_sets : b.rescaleOn = a.rescaleOn := congrArg (fun x => x.2.2.2) h

end Sets

namespace State.SetsTrack

variable {s t : State}

/-- Members may leave the sets while the TRACKING programmes stay TRACKING. -/
theorem mono (h : s.SetsTrack) (hretuneOn : t.arbiter.retuneOn = s.arbiter.retuneOn)
    (hrescaleOn : t.arbiter.rescaleOn = s.arbiter.rescaleOn)
    (hretune : ∀ p, ProgSet.mem t.arbiter.retune p = true → ProgSet.mem s.arbiter.retune p = true)
    (hrescale : ∀ p, ProgSet.mem t.arbiter.rescale p = true → ProgSet.mem s.arbiter.rescale p = true)
    (htracking : ∀ p, s.tracking p = true → t.tracking p = true) : t.SetsTrack where
  retune p hp := by
    obtain ⟨htrack, hon⟩ := h.retune p (hretune p hp)
    exact ⟨htracking p htrack, hretuneOn.trans hon⟩
  rescale p hp := by
    obtain ⟨htrack, hon⟩ := h.rescale p (hrescale p hp)
    exact ⟨htracking p htrack, hrescaleOn.trans hon⟩

theorem congr (h : s.SetsTrack) (hsets : t.arbiter.sets = s.arbiter.sets) (hprogs : t.progs = s.progs) : t.SetsTrack :=
  h.mono (retuneOn_eq_of_sets hsets) (rescaleOn_eq_of_sets hsets) (fun p hp => by rw [← retune_of_sets hsets]; exact hp)
    (fun p hp => by rw [← rescale_of_sets hsets]; exact hp) fun p hp => by rw [State.tracking, hprogs]; exact hp

/-- A programme's record changes, and where it leaves TRACKING it leaves the sets (R34). -/
theorem setProg (h : s.SetsTrack) {p : Prog} {r : ProgRecord} (hprogs : t.progs = s.progs.set p r)
    (hsets : t.arbiter.sets = (s.arbiter.leave p).sets ∨
      t.arbiter.sets = s.arbiter.sets ∧ (s.progs[p].state = .tracking → r.state = .tracking)) : t.SetsTrack := by
  have htracking (q : Prog) : t.tracking q = if p = q then r.state == .tracking else s.tracking q := by
    rw [State.tracking, hprogs, getElem_set_prog]
    split <;> rfl
  rcases hsets with hleave | ⟨hstay, hstate⟩
  · have hout {a : ProgSet} {q : Prog} (hq : ProgSet.mem (ProgSet.erase a p) q = true) :
        ProgSet.mem a q = true ∧ t.tracking q = s.tracking q := by
      rw [ProgSet.mem_erase, Bool.and_eq_true] at hq
      obtain ⟨hmem, hne⟩ := hq
      refine ⟨hmem, (htracking q).trans (if_neg fun hpq => ?_)⟩
      simp [hpq] at hne
    refine ⟨fun q hq => ?_, fun q hq => ?_⟩
    · rw [retune_of_sets hleave] at hq
      rw [(hout hq).2, retuneOn_eq_of_sets hleave]
      exact h.retune q (hout hq).1
    · rw [rescale_of_sets hleave] at hq
      rw [(hout hq).2, rescaleOn_eq_of_sets hleave]
      exact h.rescale q (hout hq).1
  · refine h.mono (retuneOn_eq_of_sets hstay) (rescaleOn_eq_of_sets hstay)
      (fun q hq => by rw [← retune_of_sets hstay]; exact hq) (fun q hq => by rw [← rescale_of_sets hstay]; exact hq)
      fun q hq => ?_
    rw [htracking]
    split
    · next hpq =>
      subst hpq
      rw [hstate ((tracking_iff s p).mp hq)]
      rfl
    · exact hq

/-- A record that keeps its programme's state. -/
theorem setProg_same (h : s.SetsTrack) {p : Prog} {r : ProgRecord} (hprogs : t.progs = s.progs.set p r)
    (hsets : t.arbiter.sets = s.arbiter.sets) (hstate : r.state = s.progs[p].state) : t.SetsTrack :=
  h.setProg hprogs (.inr ⟨hsets, fun htracking => hstate.trans htracking⟩)

theorem requestRetune (h : s.SetsTrack) (p : Prog) : (s.requestRetune p).SetsTrack := by
  refine ⟨fun q hq => ?_, h.rescale⟩
  rw [State.requestRetune_arbiter] at hq ⊢
  dsimp only at hq ⊢
  split at hq
  · next htaken =>
    rw [ProgSet.mem_insert, Bool.or_eq_true] at hq
    obtain ⟨hon, htracking⟩ := Bool.and_eq_true_iff.mp htaken
    rcases hq with hold | hnew
    · exact h.retune q hold
    · obtain rfl : p = q := by simpa using hnew
      exact ⟨htracking, hon⟩
  · exact h.retune q hq

theorem requestRescale (h : s.SetsTrack) (p : Prog) : (s.requestRescale p).SetsTrack := by
  refine ⟨h.retune, fun q hq => ?_⟩
  rw [State.requestRescale_arbiter] at hq ⊢
  dsimp only at hq ⊢
  split at hq
  · next htaken =>
    rw [ProgSet.mem_insert, Bool.or_eq_true] at hq
    obtain ⟨hon, htracking⟩ := Bool.and_eq_true_iff.mp htaken
    rcases hq with hold | hnew
    · exact h.rescale q hold
    · obtain rfl : p = q := by simpa using hnew
      exact ⟨htracking, hon⟩
  · exact h.rescale q hq

theorem reenter (h : s.SetsTrack) (op : Operation) (p : Prog) : (s.reenter op p).SetsTrack := by
  cases op with
  | retune => exact h.requestRetune p
  | rescale => exact h.requestRescale p
  | cue _ | directive _ _ | probe _ _ => exact h

theorem cancelAutomatic (h : s.SetsTrack) : s.cancelAutomatic.SetsTrack := by
  unfold State.cancelAutomatic
  split
  · split
    · exact reenter (s := s.idleEngine) (h.congr rfl rfl) _ _
    · exact h
  · exact h

theorem offerCues (h : s.SetsTrack) (old : State) : (offerCues old s).SetsTrack := by
  unfold Machine.offerCues
  split
  · exact h.cancelAutomatic
  · exact h

theorem moveTo (h : s.SetsTrack) (p : Prog) (st : ProgState) : (s.moveTo p st).SetsTrack := by
  refine h.setProg (State.moveTo_progs s p st) ?_
  rw [State.moveTo_arbiter]
  split
  · exact .inl rfl
  · next hstay =>
    refine .inr ⟨rfl, fun htracking => ?_⟩
    rw [ProgRecord.toState_eq]
    by_contra hne
    exact hstay ⟨htracking, hne⟩

theorem reportWindow (h : s.SetsTrack) (p : Prog) (l : Option Int) : (s.reportWindow p l).SetsTrack := by
  unfold State.reportWindow
  split
  · refine h.setProg rfl ?_
    dsimp only
    split
    · exact .inl rfl
    · next hstay =>
      refine .inr ⟨rfl, fun htracking => ?_⟩
      by_contra hne
      exact hstay ⟨htracking, hne⟩
  · exact h

theorem startSegment (h : s.SetsTrack) (p : Prog) : (s.startSegment p).SetsTrack :=
  h.setProg_same (State.startSegment_progs s p) (by simp) rfl

theorem completeWindow (h : s.SetsTrack) (p : Prog) (blocks : List BlockPower) : (s.completeWindow p blocks).SetsTrack := by
  unfold State.completeWindow
  dsimp only
  refine reportWindow ?_ p _
  split
  · exact requestRetune (h.congr (by simp) (by simp)) p
  · exact h.congr (by simp) (by simp)

theorem settleWindows (h : s.SetsTrack) : s.settleWindows.SetsTrack := by
  unfold State.settleWindows
  split
  · next starts _ =>
    refine congr (s := allProgs.foldl (State.settleWindow starts) s) ?_ rfl rfl
    refine foldl_invariant (P := State.SetsTrack) (fun u p hu => ?_) _ h
    unfold State.settleWindow
    split
    · exact hu.startSegment p
    · split
      · exact hu.completeWindow p _
      · exact hu
  · exact h

theorem meterSettling (h : s.SetsTrack) : s.meterSettling.SetsTrack := by
  refine foldl_invariant (P := State.SetsTrack) (fun u p hu => ?_) _ h
  unfold State.takeResetMark
  split
  · exact startSegment (hu.congr (by simp) (by simp)) p
  · exact hu

theorem swapBoundary (h : s.SetsTrack) : s.swapBoundary.SetsTrack := by
  refine ⟨h.retune, fun p hp => ?_⟩
  have hset : s.swapBoundary.arbiter.rescale =
      if s.arbiter.rescaleOn then s.arbiter.rescale ||| s.swapRescales else s.arbiter.rescale := rfl
  rw [hset] at hp
  split at hp
  · next hon =>
    rw [ProgSet.mem_or, Bool.or_eq_true, State.swapRescales, ProgSet.mem_progSetOf, Bool.and_eq_true] at hp
    rcases hp with hold | ⟨htracking, -⟩
    · exact h.rescale p hold
    · exact ⟨htracking, hon⟩
  · exact h.rescale p hp

/-! ### Completions -/

theorem setProfile (h : s.SetsTrack) (p : Prog) (q : ProfileNo) : (s.setProfile p q).SetsTrack :=
  h.setProg_same (State.setProfile_progs s p q) (by simp) rfl

theorem profilePart (h : s.SetsTrack) (e : Cue) : (s.profilePart e).SetsTrack := by
  unfold State.profilePart
  split
  · exact h.setProfile _ _
  · exact h

theorem skipCue (h : s.SetsTrack) (p : Prog) : (s.skipCue p).SetsTrack := h.setProg_same (State.skipCue_progs s p) (by simp) rfl

theorem stage (h : s.SetsTrack) (e : Cue) (gain : Option Int) (snap : Bool) : (s.stage e gain snap).SetsTrack :=
  h.congr (by simp) (by simp)

theorem idleEngine (h : s.SetsTrack) : s.idleEngine.SetsTrack := h.congr rfl rfl

theorem fill (h : s.SetsTrack) (r : Reply) (st : Status) (payload : List Byte) : (s.fill r st payload).SetsTrack :=
  h.congr rfl rfl

theorem finish (h : s.SetsTrack) (f : InFlight) : (s.finish f operationEffects).SetsTrack := by
  refine finish_cases h.idleEngine (fun r => (h.fill r _ _).idleEngine) fun _ => ?_
  exact
    { unchanged := h.idleEngine
      reentered := (h.reenter _ _).idleEngine
      target := fun g => idleEngine (h.congr (by simp) (by simp))
      filled := fun r st payload => (h.fill r st payload).idleEngine
      exchanged := fun _ new r payload => (((h.setProfile _ new).requestRetune _).fill r _ payload).idleEngine
      forced := fun _ gain snap r payload => idleEngine (fill (h.setProg (t := s.forced f.prog gain snap) rfl (.inl rfl)) r _ payload)
      released := fun _ r payload => (((h.moveTo _ _).requestRetune _).fill r _ payload).idleEngine
      cue := fun e _ =>
        { unchanged := h.idleEngine
          profiled := fun _ => (h.profilePart e).idleEngine
          profiledStaged := fun _ gain snap => ((h.profilePart e).stage e gain snap).idleEngine
          profiledSkipped := fun _ => ((h.profilePart e).skipCue _).idleEngine
          skipped := fun _ => (h.skipCue _).idleEngine
          held := fun _ => ((h.moveTo _ _).stage e _ _).idleEngine
          released := fun _ => ((h.moveTo _ _).requestRetune _).idleEngine
          staged := fun _ => (h.stage e _ _).idleEngine } }

/-! ### Requests and grants -/

theorem closeEffects (h : s.SetsTrack) (p : Prog) : (s.closeEffects p).SetsTrack := by
  have hstarted : (s.startHeldSegment p).SetsTrack := by
    unfold State.startHeldSegment
    split
    · exact h.startSegment p
    · exact h
  have hreported : ((s.startHeldSegment p).reportEmptied p).SetsTrack := by
    unfold State.reportEmptied
    (repeat' split)
    · exact cancelAutomatic (s := (s.startHeldSegment p).draw) (hstarted.congr rfl rfl)
    · exact hstarted.congr rfl rfl
    · exact hstarted
  exact hreported.setProg (t := s.closeEffects p) (p := p) rfl (.inl rfl)

theorem participate (h : s.SetsTrack) (retune rescale : Bool) : (s.setArbiter { s.arbiter with
      retuneOn := retune, rescaleOn := rescale
      retune := if s.arbiter.retuneOn && !retune then 0 else s.arbiter.retune
      rescale := if s.arbiter.rescaleOn && !rescale then 0 else s.arbiter.rescale }).SetsTrack := by
  have hset {a : ProgSet} {was now : Bool} {p : Prog} (hkept : ProgSet.mem a p = true → s.tracking p = true ∧ was = true)
      (hp : ProgSet.mem (if was && !now then 0 else a) p = true) : s.tracking p = true ∧ now = true := by
    split at hp
    · rw [ProgSet.mem_zero] at hp
      cases hp
    · next hstay =>
      obtain ⟨htracking, hon⟩ := hkept hp
      exact ⟨htracking, by simpa [hon] using hstay⟩
  exact ⟨fun p hp => hset (h.retune p) hp, fun p hp => hset (h.rescale p) hp⟩

theorem of_empty (hretune : s.arbiter.retune = 0) (hrescale : s.arbiter.rescale = 0) : s.SetsTrack :=
  ⟨fun p hp => (by rw [hretune, ProgSet.mem_zero] at hp; cases hp),
    fun p hp => (by rw [hrescale, ProgSet.mem_zero] at hp; cases hp)⟩

theorem mapped (h : s.SetsTrack) (first count : Nat) (m : MapMode) (p : Prog) : (s.mapped first count m p).SetsTrack := by
  by_cases haffects : s.mapAffects (s.mapSlots first count m p) p = true
  · exact h.setProg_same ((mapped_progs s first count m p).trans (if_pos haffects)) (by simp) rfl
  · exact h.congr (by simp) ((mapped_progs s first count m p).trans (if_neg haffects))

theorem readPresence (h : s.SetsTrack) (c : Cell) : (readPresence c s).SetsTrack := by
  refine h.mono (by simp [Machine.readPresence]) (by simp [Machine.readPresence]) (fun p hp => by simpa [Machine.readPresence] using hp)
    (fun p hp => by simpa [Machine.readPresence] using hp) fun p hp => ?_
  have hprogs : (Machine.readPresence c s).progs = Vector.ofFn fun p : Prog =>
    { s.progs[p] with reference := s.progs[p].presence } := by simp [Machine.readPresence]
  rw [State.tracking, hprogs, getElem_ofFn_prog]
  exact hp

theorem request {i : Instr} {code : Nat} {handle : Cell → State → State} (hrow : IsRequest i code handle) (c : Cell)
    (h : s.SetsTrack) : (handle c s).SetsTrack := by
  have hsame (t : State) (hsets : t.arbiter = s.arbiter) (hprogs : t.progs = s.progs) : t.SetsTrack :=
    h.congr (congrArg Arbiter.sets hsets) hprogs
  have hanswer {u : State} (st : Status) (payload : List Byte) (hu : u.SetsTrack) : (u.answer c st payload).SetsTrack :=
    hu.congr rfl rfl
  refine RequestCases.request (P := State.SetsTrack) ?_ hrow
  exact
    { answered := fun st n payload => hsame _ (by simp) (by simp)
      read := fun st n payload => hsame _ (by simp) (by simp)
      writes := fun q _ _ => hsame _ (by simp) (by simp)
      loads := fun k _ _ _ => hsame _ (by simp) (by simp)
      swaps := fun set _ => hsame _ (by simp) (by simp)
      maps := fun m p _ _ => hanswer _ _ (h.mapped _ _ m p)
      opens := fun p q hunused => hanswer _ _ (h.setProg (t := s.openEffects p q) rfl
        (.inr ⟨by simp, fun htracking => by rw [hunused] at htracking; cases htracking⟩))
      closes := fun p _ => hanswer _ _ (h.closeEffects p)
      posts := fun p o _ _ _ _ => hanswer _ _ (offerCues (h.congr (by simp) (by simp)) s)
      withdraws := fun p d n => hsame _ (by simp) (by simp)
      joins := fun op p => cancelAutomatic (h.congr (by rfl) (by rfl))
      probes := fun p q _ => h.congr (by rfl) (by rfl)
      presences := h.readPresence c
      marks := fun p _ => hsame _ (by simp) (by simp)
      participates := fun retune rescale n => hanswer _ _ (h.participate retune rescale)
      notices := fun n => hsame _ (by simp) (by simp)
      restarts := of_empty (by simp [restartPart, Arbiter.reset]) (by simp [restartPart, Arbiter.reset]) }

theorem grants : KeptByGrants State.SetsTrack where
  abort h := h.congr rfl rfl
  dropProbe _ h := h.congr rfl rfl
  directive _ _ h := h.congr rfl rfl
  cue _ _ h := h.congr rfl rfl
  probe _ h := h.congr rfl rfl
  rescale p h := h.mono rfl rfl (fun _ hq => hq) (fun q hq => (Bool.and_eq_true_iff.mp ((ProgSet.mem_erase _ p q).symm.trans hq)).1)
    fun _ hq => hq
  retune p h := h.mono rfl rfl (fun q hq => (Bool.and_eq_true_iff.mp ((ProgSet.mem_erase _ p q).symm.trans hq)).1) (fun _ hq => hq)
    fun _ hq => hq

end State.SetsTrack

/-- Every piece of a command's work keeps the members of the two sets TRACKING and their flags on. -/
theorem setsTrack_kept : KeptByCommands State.SetsTrack where
  link e h := by rw [e]; exact h.congr rfl rfl
  countError n h := h.congr rfl rfl
  arrive c h := h.congr (by simp) (by simp)
  report source h := h.congr (by simp) (by simp)
  windows h := h.settleWindows
  finish f _ h := h.finish f
  swap h := h.swapBoundary
  count _ h := h.congr (by simp) (by simp)
  due {s} t h := .offerCues (s := { s with cues := s.cues.map (Cue.checkDue t), owed := 0 }) (h.congr rfl rfl) s
  meter starts entry h := h.congr (by simp) (by simp)
  meterSettling h := h.meterSettling
  gain t entry h := .offerCues (h.congr (by simp) (by simp)) _
  accumulate h := h.congr (by simp) (by simp)
  check x h := h.congr (by simp) (by simp)
  meterDeparture h := h.congr (by simp) (by simp)
  gainDeparture h := h.congr (by simp) (by simp)
  pinReset x := .of_empty rfl rfl
  take h := h.congr (by simp) (by simp)
  refused c st _ h := h.congr rfl rfl
  request i code handle c hrow _ h := h.request hrow c
  grant _ h := State.SetsTrack.grants.grantNext h

end Sys2Proof.Machine
end

/-! ## Cues, staged entries and owed segments name open programmes, through every command (R37, R136) -/

section
namespace Sys2Proof.Machine

/-- Every cue entry, every staged entry and every programme of the owed segment set names a programme that is not UNUSED. -/
structure State.EntriesOpen (s : State) : Prop where
  cues : ∀ c ∈ s.cues, s.opened c.prog = true
  staged : ∀ p : Prog, s.gains[p].staged ≠ [] → s.opened p = true
  owed : ∀ p : Prog, ProgSet.mem s.owed p = true → s.opened p = true

theorem namesOpen_iff {s : State} : s.NamesOpen ↔ s.EntriesOpen ∧ s.SetsTrack :=
  ⟨fun h => ⟨⟨h.cues, h.staged, h.owed⟩, ⟨h.retune, h.rescale⟩⟩,
    fun ⟨h, g⟩ => ⟨h.cues, h.staged, h.owed, g.retune, g.rescale⟩⟩

theorem State.NoMoreStaged.ne_nil {s t : State} (h : s.NoMoreStaged t) {p : Prog} (hp : t.gains[p].staged ≠ []) :
    s.gains[p].staged ≠ [] := by
  intro hnone
  have hlength := h p
  rw [hnone, List.length_nil, Nat.le_zero, List.length_eq_zero_iff] at hlength
  exact hp hlength

/-- The staged entries that a completion leaves are those there were, or one of a programme in use. -/
theorem finish_staged (s : State) (f : InFlight) (p : Prog) (hp : (s.finish f operationEffects).gains[p].staged ≠ []) :
    s.gains[p].staged ≠ [] ∨ s.opened p = true := by
  have hsame {u : State} (hu : s.NoMoreStaged u) : u.idleEngine.gains[p].staged ≠ [] → s.gains[p].staged ≠ [] ∨ s.opened p = true :=
    fun hne => .inl (hu.ne_nil hne)
  have hstage {u : State} {e : Cue} (hopen : s.progs[e.prog].state ≠ .unused) (hu : s.NoMoreStaged u) (gain : Option Int)
      (snap : Bool) : (u.stage e gain snap).idleEngine.gains[p].staged ≠ [] → s.gains[p].staged ≠ [] ∨ s.opened p = true := by
    intro hne
    by_cases hprog : p = e.prog
    · subst hprog
      exact .inr ((opened_iff s _).mpr hopen)
    · refine .inl fun hnone => hne ?_
      have hlength := stage_staged_length u e gain snap p
      rw [if_neg (by simpa [eq_comm] using hprog)] at hlength
      have hbefore := hu p
      rw [hnone] at hbefore
      exact List.length_eq_zero_iff.mp (Nat.le_zero.mp (hlength.trans hbefore))
  revert hp
  refine finish_cases (P := fun u => u.gains[p].staged ≠ [] → s.gains[p].staged ≠ [] ∨ s.opened p = true) (hsame (.of_eq rfl))
    (fun _ => hsame (.of_eq rfl)) fun _ => ?_
  exact
    { unchanged := hsame (.of_eq rfl)
      reentered := hsame (.of_eq (by simp))
      target := fun g => hsame (setTarget_noMoreStaged s _ g)
      filled := fun _ _ _ => hsame (.of_eq rfl)
      exchanged := fun _ _ _ _ => hsame (setProfile_noMoreStaged s _ _)
      forced := fun _ _ _ _ _ => hsame (.of_set rfl (Nat.zero_le _))
      released := fun _ _ _ => hsame (.of_eq rfl)
      cue := fun e _ =>
        { unchanged := hsame (.of_eq rfl)
          profiled := fun _ => hsame (profilePart_noMoreStaged s e)
          profiledStaged := fun hopen gain snap => hstage hopen (profilePart_noMoreStaged s e) gain snap
          profiledSkipped := fun _ => hsame (profilePart_noMoreStaged s e)
          skipped := fun _ => hsame (.of_eq rfl)
          held := fun hopen => hstage hopen (.of_eq (t := s.moveTo e.prog .held) rfl) none false
          released := fun _ => hsame (.of_eq rfl)
          staged := fun hopen => hstage hopen (.of_eq rfl) e.gain e.snap } }

namespace State.EntriesOpen

variable {s t : State}

/-- Entries may go while the programmes in use stay in use. -/
theorem mono (h : s.EntriesOpen) (hcues : ∀ c ∈ t.cues, ∃ e ∈ s.cues, e.prog = c.prog)
    (hstaged : ∀ p : Prog, t.gains[p].staged ≠ [] → s.gains[p].staged ≠ [])
    (howed : ∀ p : Prog, ProgSet.mem t.owed p = true → ProgSet.mem s.owed p = true)
    (hopened : ∀ p : Prog, s.opened p = true → t.opened p = true) : t.EntriesOpen where
  cues c hc := by
    obtain ⟨e, he, hprog⟩ := hcues c hc
    rw [← hprog]
    exact hopened _ (h.cues e he)
  staged p hp := hopened p (h.staged p (hstaged p hp))
  owed p hp := hopened p (h.owed p (howed p hp))

theorem congr (h : s.EntriesOpen) (hcues : t.cues = s.cues) (hgains : t.gains = s.gains) (howed : t.owed = s.owed)
    (hopened : ∀ p : Prog, t.opened p = s.opened p) : t.EntriesOpen :=
  h.mono (fun c hc => ⟨c, by rw [← hcues]; exact hc, rfl⟩) (fun p hp => by rw [← hgains]; exact hp)
    (fun p hp => by rw [← howed]; exact hp) fun p hp => by rw [hopened]; exact hp

theorem congr_eq (h : s.EntriesOpen) (hcues : t.cues = s.cues) (hgains : t.gains = s.gains) (howed : t.owed = s.owed)
    (hprogs : t.progs = s.progs) : t.EntriesOpen :=
  h.congr hcues hgains howed (opened_of_progs hprogs)

theorem of_empty (hcues : s.cues = []) (hgains : ∀ p : Prog, s.gains[p].staged = []) (howed : s.owed = 0) : s.EntriesOpen :=
  ⟨fun c hc => (by rw [hcues] at hc; cases hc), fun p hp => absurd (hgains p) hp,
    fun p hp => (by rw [howed, ProgSet.mem_zero] at hp; cases hp)⟩

theorem finish (h : s.EntriesOpen) {f : InFlight} (hf : s.engine = some f) : (s.finish f operationEffects).EntriesOpen where
  cues c hc := by
    rw [finish_opened hf]
    exact h.cues c (by simpa using hc)
  staged p hp := by
    rw [finish_opened hf]
    exact (finish_staged s f p hp).elim (h.staged p) id
  owed p hp := by
    rw [finish_opened hf]
    exact h.owed p (by simpa using hp)

theorem insertPosted (h : s.EntriesOpen) {new : Cue} (hopen : s.opened new.prog = true) (replaced : Bool)
    (hdue : ¬s.PostMeetsDue new.prog new.block) : (s.insertPosted new replaced).EntriesOpen := by
  have hopened := opened_of_progs (s := s) (t := s.insertPosted new replaced) (by simp)
  refine ⟨fun c hc => ?_, fun p hp => ?_, fun p hp => ?_⟩
  · rw [hopened]
    rw [insertPosted_cues s new replaced hdue, (insertCue_perm new _).mem_iff, List.mem_cons] at hc
    rcases hc with rfl | hold
    · exact hopen
    · exact h.cues c (List.mem_of_mem_filter hold)
  · rw [hopened]
    exact h.staged p (by simpa using hp)
  · rw [hopened]
    have howed : (s.insertPosted new replaced).owed =
        if new.due && new.kind == CueKind.segment then ProgSet.insert s.owed new.prog else s.owed := by
      simp only [State.insertPosted, offerCues_frame, State.claimIf_owed]
    rw [howed] at hp
    split at hp
    · rw [ProgSet.mem_insert, Bool.or_eq_true] at hp
      rcases hp with hold | hnew
      · exact h.owed p hold
      · obtain rfl : new.prog = p := by simpa using hnew
        exact hopen
    · exact h.owed p hp

theorem closeEffects (h : s.EntriesOpen) (p : Prog) : (s.closeEffects p).EntriesOpen := by
  have hother {q : Prog} (hne : q ≠ p) (hq : s.opened q = true) : (s.closeEffects p).opened q = true := by
    rw [closeEffects_opened, if_neg (Ne.symm hne)]
    exact hq
  refine ⟨fun c hc => ?_, fun q hq => ?_, fun q hq => ?_⟩
  · obtain ⟨hold, hne⟩ : c ∈ s.cues ∧ c.prog ≠ p := by simpa [State.closeEffects, State.tearDown] using hc
    exact hother hne (h.cues c hold)
  · have hgains : (s.closeEffects p).gains = s.gains.set p s.gains[p].closed := by simp [State.closeEffects, State.tearDown]
    rw [hgains, getElem_set_prog] at hq
    split at hq
    · exact absurd rfl hq
    · next hne => exact hother (Ne.symm hne) (h.staged q hq)
  · have howed : (s.closeEffects p).owed = ProgSet.erase s.owed p := by simp [State.closeEffects, State.tearDown]
    rw [howed, ProgSet.mem_erase, Bool.and_eq_true] at hq
    exact hother (fun hqp => by simp [hqp] at hq) (h.owed q hq.1)

theorem openEffects (h : s.EntriesOpen) (p : Prog) (q : ProfileNo) : (s.openEffects p q).EntriesOpen := by
  refine h.mono (fun c hc => ⟨c, by simpa using hc, rfl⟩) (fun r hr => ?_) (fun r hr => by simpa using hr) fun r hr => ?_
  · have hgains : (s.openEffects p q).gains = s.gains.set p (s.gains[p].opened s.profiles[q].initialGain) := rfl
    rw [hgains, getElem_set_prog] at hr
    split at hr
    · next hpr => exact hpr ▸ hr
    · exact hr
  · rw [openEffects_opened]
    split
    · rfl
    · exact hr

theorem request {i : Instr} {code : Nat} {handle : Cell → State → State} (hrow : IsRequest i code handle) (c : Cell)
    (h : s.EntriesOpen) : (handle c s).EntriesOpen := by
  have hsame (t : State) (hcues : t.cues = s.cues) (hgains : t.gains = s.gains) (howed : t.owed = s.owed)
      (hprogs : t.progs = s.progs) : t.EntriesOpen := h.congr_eq hcues hgains howed hprogs
  have hanswer {u : State} (st : Status) (payload : List Byte) (hu : u.EntriesOpen) : (u.answer c st payload).EntriesOpen :=
    hu.congr_eq rfl rfl rfl rfl
  refine RequestCases.request (P := State.EntriesOpen) ?_ hrow
  exact
    { answered := fun st n payload => hsame _ (by simp) (by simp) (by simp) (by simp)
      read := fun st n payload => hsame _ (by simp) (by simp) (by simp) (by simp)
      writes := fun q _ _ => hsame _ (by simp) (by simp) (by simp) (by simp)
      loads := fun k _ _ _ => hsame _ (by simp) (by simp) (by simp) (by simp)
      swaps := fun set _ => hsame _ (by simp) (by simp) (by simp) (by simp)
      maps := fun m p _ _ => hanswer _ _ (h.congr (by simp) (by simp) (by simp) (mapped_opened s _ _ m p))
      opens := fun p q _ => hanswer _ _ (h.openEffects p q)
      closes := fun p _ => hanswer _ _ (h.closeEffects p)
      posts := fun p o hopen _ hdue _ =>
        hanswer _ _ (h.insertPosted (new := s.postedCue p o) ((opened_iff s p).mpr hopen) _ hdue)
      withdraws := fun p d n => hanswer _ _ (h.mono (fun e he => ⟨e, List.mem_of_mem_filter he, rfl⟩) (fun _ hq => hq)
        (fun _ hq => hq) fun _ hq => hq)
      joins := fun op p => hsame _ (by simp) (by simp) (by simp) (by simp)
      probes := fun p q _ => hsame _ (by rfl) (by rfl) (by rfl) (by rfl)
      presences := h.congr (by simp [readPresence]) (by simp [readPresence]) (by simp [readPresence]) (readPresence_opened c s)
      marks := fun p _ => hsame _ (by simp) (by simp) (by simp) (by simp)
      participates := fun retune rescale n => hsame _ (by simp) (by simp) (by simp) (by simp)
      notices := fun n => hsame _ (by simp) (by simp) (by simp) (by simp)
      restarts := of_empty (by simp [restartPart]) (fun p => by simp [restartPart, GainRecord.reset]) (by simp [restartPart]) }

theorem dueCheck (h : s.EntriesOpen) (t : LinkTime) : (s.dueCheck t).EntriesOpen := by
  have hopened := opened_of_progs (s := s) (t := s.dueCheck t) (by simp)
  have hcues : (s.dueCheck t).cues = s.cues.map (Cue.checkDue t) := by simp [State.dueCheck]
  refine h.mono (fun c hc => ?_) (fun p hp => by simpa using hp) (fun p hp => ?_) fun p hp => by rw [hopened]; exact hp
  · rw [hcues, List.mem_map] at hc
    obtain ⟨e, he, rfl⟩ := hc
    refine ⟨e, he, ?_⟩
    unfold Cue.checkDue
    split <;> rfl
  · have howed : (s.dueCheck t).owed = 0 := by simp [State.dueCheck]
    rw [howed, ProgSet.mem_zero] at hp
    cases hp

theorem grants : KeptByGrants State.EntriesOpen where
  abort h := h.congr_eq rfl rfl rfl rfl
  dropProbe _ h := h.congr_eq rfl rfl rfl rfl
  directive _ _ h := h.congr_eq rfl rfl rfl rfl
  cue _ _ h := h.mono (fun e he => ⟨e, List.mem_of_mem_erase he, rfl⟩) (fun _ hq => hq) (fun _ hq => hq) fun _ hq => hq
  probe _ h := h.congr_eq rfl rfl rfl rfl
  rescale _ h := h.congr_eq rfl rfl rfl rfl
  retune _ h := h.congr_eq rfl rfl rfl rfl

/-- The Gain Stage's work changes the staged lists by taking entries from them. -/
theorem gains (h : s.EntriesOpen) (hcues : t.cues = s.cues) (howed : t.owed = s.owed) (hprogs : t.progs = s.progs)
    (hgains : ∀ p : Prog, t.gains[p].staged.length ≤ s.gains[p].staged.length) : t.EntriesOpen :=
  h.mono (fun c hc => ⟨c, by rw [← hcues]; exact hc, rfl⟩) (fun _ hp => State.NoMoreStaged.ne_nil hgains hp)
    (fun p hp => by rw [← howed]; exact hp) fun p hp => by rw [opened_of_progs hprogs]; exact hp

end State.EntriesOpen

theorem gainBoundary_noMoreStaged (s : State) (t : LinkTime) (entry : Bool) : s.NoMoreStaged (s.gainBoundary t entry) := by
  intro p
  have hrecord : (s.gainBoundary t entry).gains[p] = s.gainAfterBoundary t entry p := by simp [State.gainBoundary]
  rw [hrecord, State.gainAfterBoundary]
  split
  · exact boundaryWork_staged_length _ _ _ _ _
  · exact le_rfl

theorem frameCheck_noMoreStaged (s : State) (x : Samples) : s.NoMoreStaged (s.frameCheck x) := by
  intro p
  rw [State.frameCheck, State.setGains_gains, getElem_ofFn_prog]
  split <;> exact le_rfl

theorem gainDeparture_noMoreStaged (s : State) : s.NoMoreStaged s.gainDeparture := by
  intro p
  rw [State.gainDeparture, State.setGains_gains, getElem_ofFn_prog]
  split <;> exact le_rfl

/-- Every piece of a command's work leaves no entry that names a programme out of use. -/
theorem entriesOpen_kept : KeptByCommands State.EntriesOpen where
  link e h := by rw [e]; exact h.congr_eq rfl rfl rfl rfl
  countError n h := h.congr_eq rfl rfl rfl rfl
  arrive c h := h.congr_eq (by simp) (by simp) (by simp) (by simp)
  report source h := h.congr_eq (by simp) (by simp) (by simp) (by simp)
  windows {s} h := h.congr (by simp) (by simp) (by simp) (settleWindows_opened s)
  finish f hf h := h.finish hf
  swap h := h.congr_eq (by simp) (by simp) (by simp) (by simp)
  count _ h := h.congr_eq (by simp) (by simp) (by simp) (by simp)
  due t h := h.dueCheck t
  meter starts entry h := h.congr_eq (by simp) (by simp) (by simp) (by simp)
  meterSettling {s} h := h.congr (by simp) (by simp) (by simp) (meterSettling_opened s)
  gain {s} t entry h := h.gains (by simp) (by simp) (by simp) (gainBoundary_noMoreStaged s t entry)
  accumulate h := h.congr_eq (by simp) (by simp) (by simp) (by simp)
  check {s} x h := h.gains (by simp) (by simp) (by simp) (frameCheck_noMoreStaged s x)
  meterDeparture h := h.congr_eq (by simp) (by simp) (by simp) (by simp)
  gainDeparture {s} h := h.gains (by simp) (by simp) (by simp) (gainDeparture_noMoreStaged s)
  pinReset x := .of_empty rfl (fun p => by simp [State.afterReset, GainRecord.reset]) rfl
  take h := h.congr_eq (by simp) (by simp) (by simp) (by simp)
  refused c st _ h := h.congr_eq rfl rfl rfl rfl
  request i code handle c hrow _ h := h.request hrow c
  grant _ h := State.EntriesOpen.grants.grantNext h

/-- Settles O57: what every command keeps, for the slots, for what names a programme and for the Cue Queue. -/
theorem stepsKeepWhatNamesAProgramme : Obligations.StepsKeepWhatNamesAProgramme := by
  refine fun s t e => ⟨slotsKept_kept.step e, fun h => ?_, cuesKept_kept.step e⟩
  obtain ⟨hentries, hsets⟩ := namesOpen_iff.mp h
  exact namesOpen_iff.mpr ⟨entriesOpen_kept.step e hentries, setsTrack_kept.step e hsets⟩

end Sys2Proof.Machine
end

/-! ## The gains in their ranges through every command (R67, R139, R140, R149, R150) -/

section
namespace Sys2Proof.Machine

/-! ### The guard through the work of a boundary (R150, R154, R158) -/

section Guard

variable (q : Profile) (t : LinkTime) (entry : Bool) (m : Nat) (g : GainRecord)

/-- The length of the guard window once a boundary's block has been counted into it. -/
def GainRecord.windowLength (entry : Bool) (g : GainRecord) : Nat := (if entry then 0 else g.guardLength) + 1

/-- The count of the guard window once a boundary's block has been counted into it, by the reduction it leaves. -/
def GainRecord.windowCount (entry : Bool) (g : GainRecord) (reduction : Nat) : Nat :=
  (if entry then 0 else g.guardCount) + if 0 < reduction then 1 else 0

theorem applyEntry_guard (e : Staged) : (g.applyEntry q e).reduction = g.reduction ∧
    (g.applyEntry q e).guardLength = g.guardLength ∧ (g.applyEntry q e).guardCount = g.guardCount ∧
    (g.applyEntry q e).pressure = g.pressure := by
  unfold GainRecord.applyEntry
  split
  · exact ⟨rfl, rfl, rfl, rfl⟩
  · exact ⟨rfl, rfl, rfl, rfl⟩
  · split <;> exact ⟨rfl, rfl, rfl, rfl⟩

theorem foldl_applyEntry_guard (l : List Staged) : (l.foldl (GainRecord.applyEntry q) g).reduction = g.reduction ∧
    (l.foldl (GainRecord.applyEntry q) g).guardLength = g.guardLength ∧
    (l.foldl (GainRecord.applyEntry q) g).guardCount = g.guardCount ∧
    (l.foldl (GainRecord.applyEntry q) g).pressure = g.pressure := by
  induction l generalizing g with
  | nil => exact ⟨rfl, rfl, rfl, rfl⟩
  | cons e l ih =>
    obtain ⟨hreduction, hlength, hcount, hpressure⟩ := applyEntry_guard q g e
    rw [List.foldl_cons, ← hreduction, ← hlength, ← hcount, ← hpressure]
    exact ih _

/-- Stages 1 and 2 touch neither the reduction nor the guard window. -/
@[simp] theorem applyStaged_guard : (g.applyStaged q t).reduction = g.reduction ∧
    (g.applyStaged q t).guardLength = g.guardLength ∧ (g.applyStaged q t).guardCount = g.guardCount ∧
    (g.applyStaged q t).pressure = g.pressure := foldl_applyEntry_guard q _ _

@[simp] theorem takeSnap_guard : g.takeSnap.reduction = g.reduction ∧ g.takeSnap.guardLength = g.guardLength ∧
    g.takeSnap.guardCount = g.guardCount ∧ g.takeSnap.pressure = g.pressure := by
  unfold GainRecord.takeSnap
  split <;> exact ⟨rfl, rfl, rfl, rfl⟩

theorem boundaryWork_reduction : (g.boundaryWork q t entry m).reduction =
    guardStep (guardNeed m (g.boundaryWork q t entry m).current q.ceiling) q.guardRelease g.reduction := by
  cases entry <;> simp [GainRecord.boundaryWork]

/-- The guard window while its 75th block is not yet counted. -/
theorem boundaryWork_window_of_lt (h : g.windowLength entry < 75) :
    (g.boundaryWork q t entry m).guardLength = g.windowLength entry ∧
    (g.boundaryWork q t entry m).guardCount = g.windowCount entry (g.boundaryWork q t entry m).reduction ∧
    (g.boundaryWork q t entry m).pressure = g.pressure := by
  unfold GainRecord.windowLength at h ⊢
  unfold GainRecord.windowCount
  cases entry
  · simp at h
    simp [GainRecord.boundaryWork, GainRecord.countBlock, h]
  · simp [GainRecord.boundaryWork, GainRecord.countBlock]

/-- The 75th block of a guard window: the pressure flag is judged and a window begins anew. -/
theorem boundaryWork_window_of_ge (h : 75 ≤ g.windowLength entry) :
    (g.boundaryWork q t entry m).guardLength = 0 ∧ (g.boundaryWork q t entry m).guardCount = 0 ∧
    (g.boundaryWork q t entry m).pressure =
      decide (q.pressureThreshold ≤ g.windowCount entry (g.boundaryWork q t entry m).reduction) := by
  unfold GainRecord.windowLength at h
  unfold GainRecord.windowCount
  cases entry
  · have hfull : ¬g.guardLength + 1 < 75 := by simpa using h
    simp [GainRecord.boundaryWork, GainRecord.countBlock, hfull]
  · simp at h

end Guard

end Sys2Proof.Machine
end

/-! ## Every step keeps every profile legal and every gain in its range (R67, R139, R140, R149) -/

section
namespace Sys2Proof.Machine

/-! ### The active profile of a programme -/

theorem profile_of_setProg {s t : State} {p : Prog} {r : ProgRecord} (hprogs : t.progs = s.progs.set p r)
    (hr : r.profile = s.progs[p].profile) (q : Prog) : t.progs[q].profile = s.progs[q].profile := by
  rw [hprogs, getElem_set_prog]
  split
  · next hpq => rw [hr, hpq]
  · rfl

theorem afterReport_profile (q : Profile) (r : ProgRecord) (l : Option Int) : (r.afterReport q l).profile = r.profile := by
  unfold ProgRecord.afterReport
  split
  · rfl
  · rw [ProgRecord.toState_eq]
    rfl

theorem reportWindow_profile (s : State) (p q : Prog) (l : Option Int) :
    (s.reportWindow p l).progs[q].profile = s.progs[q].profile := by
  unfold State.reportWindow
  split
  · exact profile_of_setProg (by rfl) (afterReport_profile _ _ l) q
  · rfl

theorem settleWindow_profile (starts : ProgSet) (s : State) (p q : Prog) :
    (State.settleWindow starts s p).progs[q].profile = s.progs[q].profile := by
  unfold State.settleWindow
  split
  · exact profile_of_setProg (State.startSegment_progs s p) rfl q
  · split
    · unfold State.completeWindow
      dsimp only
      rw [reportWindow_profile]
      split <;> rfl
    · rfl

theorem settleWindows_profile (s : State) (p : Prog) : s.settleWindows.progs[p].profile = s.progs[p].profile := by
  unfold State.settleWindows
  split
  · next starts _ => exact foldl_keeps (fun u => u.progs[p].profile) _ (fun u q => settleWindow_profile starts u q p) _ _
  · rfl

theorem meterSettling_profile (s : State) (p : Prog) : s.meterSettling.progs[p].profile = s.progs[p].profile := by
  refine foldl_keeps (fun u => u.progs[p].profile) _ (fun u q => ?_) _ _
  unfold State.takeResetMark
  split
  · exact profile_of_setProg (s := u) (State.startSegment_progs _ q) rfl p
  · rfl

/-! ### A gain record under its programme's record -/

/-- A gain record in its ranges, its target in the range of the active profile where the programme is in use. -/
structure GainRecord.Fits (profiles : Vector Profile 8) (r : ProgRecord) (g : GainRecord) : Prop where
  inProfile : r.state ≠ .unused → profiles[r.profile].gainMin ≤ g.target ∧ g.target ≤ profiles[r.profile].gainMax
  inRange : g.InRange
  reduction : g.reduction ≤ 400
  guardWindow : g.guardCount ≤ g.guardLength ∧ g.guardLength ≤ 74

theorem gainsKept_iff {s : State} : s.GainsKept ↔
    (∀ q : ProfileNo, s.profiles[q].Legal) ∧ ∀ p : Prog, s.gains[p].Fits s.profiles s.progs[p] :=
  ⟨fun h => ⟨h.profiles, fun p => ⟨fun ho => h.inProfile p ((opened_iff s p).mpr ho), ⟨h.target p, h.current p⟩,
      h.reduction p, h.guardWindow p⟩⟩,
    fun ⟨hprofiles, hfits⟩ => ⟨hprofiles, fun p ho => (hfits p).inProfile ((opened_iff s p).mp ho), fun p => (hfits p).inRange.target,
      fun p => (hfits p).inRange.current, fun p => (hfits p).reduction, fun p => (hfits p).guardWindow⟩⟩

namespace GainRecord.Fits

variable {v : Vector Profile 8} {r r' : ProgRecord} {g : GainRecord}

theorem congr (h : g.Fits v r) (hr : r'.state ≠ .unused → r.state ≠ .unused ∧ r'.profile = r.profile) : g.Fits v r' where
  inProfile ho := by
    obtain ⟨hopen, hprofile⟩ := hr ho
    have hsame : v[r'.profile] = v[r.profile] := by simp only [hprofile]
    rw [hsame]
    exact h.inProfile hopen
  inRange := h.inRange
  reduction := h.reduction
  guardWindow := h.guardWindow

theorem clamped (h : g.Fits v r) (hlegal : ∀ q : ProfileNo, v[q].Legal) (r' : ProgRecord) (x : Int) :
    ({ g with target := clampGain v[r'.profile].gainMin v[r'.profile].gainMax x } : GainRecord).Fits v r' where
  inProfile _ := by
    have hordered := (hlegal r'.profile).initialGain.1.trans (hlegal r'.profile).initialGain.2
    exact ⟨clampGain_ge hordered, clampGain_le hordered⟩
  inRange := ⟨(hlegal r'.profile).clampGain_inRange x, h.inRange.current⟩
  reduction := h.reduction
  guardWindow := h.guardWindow

theorem opened (hlegal : ∀ q : ProfileNo, v[q].Legal) (q : ProfileNo) :
    (g.opened v[q].initialGain).Fits v (r.opened q) where
  inProfile _ := (hlegal q).initialGain
  inRange := by
    obtain ⟨hlow, hhigh⟩ := (hlegal q).initialGain
    have hmin := (hlegal q).gainMin
    have hmax := (hlegal q).gainMax
    exact ⟨⟨hmin.trans hlow, hhigh.trans hmax⟩, ⟨hmin.trans hlow, hhigh.trans hmax⟩⟩
  reduction := Nat.zero_le _
  guardWindow := ⟨le_rfl, Nat.zero_le _⟩

theorem closed (h : g.Fits v r) : g.closed.Fits v r.closed where
  inProfile ho := absurd rfl ho
  inRange := ⟨h.inRange.target, h.inRange.current⟩
  reduction := Nat.zero_le _
  guardWindow := ⟨le_rfl, Nat.zero_le _⟩

theorem departed (h : g.Fits v r) : ({ g with reduction := 0, guardLength := 0, guardCount := 0 } : GainRecord).Fits v r where
  inProfile := h.inProfile
  inRange := ⟨h.inRange.target, h.inRange.current⟩
  reduction := Nat.zero_le _
  guardWindow := ⟨le_rfl, Nat.zero_le _⟩

theorem raiseTo (h : g.Fits v r) {m : Nat} (hm : m ≤ fullScale) (hlegal : v[r.profile].Legal) :
    (g.raiseTo m v[r.profile].ceiling).Fits v r where
  inProfile := h.inProfile
  inRange := ⟨h.inRange.target, h.inRange.current⟩
  reduction := max_le h.reduction (guardNeed_le hm h.inRange.current.2 hlegal.ceiling.1)
  guardWindow := h.guardWindow

/-- An applied entry leaves a target in the range of the profile it acts under (R146). -/
theorem applyStaged_inProfile {q : Profile} (hq : q.Legal) (t : LinkTime) (hg : q.gainMin ≤ g.target ∧ g.target ≤ q.gainMax) :
    q.gainMin ≤ (g.applyStaged q t).target ∧ (g.applyStaged q t).target ≤ q.gainMax := by
  have hordered := hq.initialGain.1.trans hq.initialGain.2
  have hfold : ∀ (l : List Staged) (x : GainRecord), q.gainMin ≤ x.target ∧ x.target ≤ q.gainMax →
      q.gainMin ≤ (l.foldl (GainRecord.applyEntry q) x).target ∧ (l.foldl (GainRecord.applyEntry q) x).target ≤ q.gainMax := by
    intro l
    induction l with
    | nil => exact fun _ hx => hx
    | cons e l ih =>
      refine fun x hx => ih _ ?_
      rw [applyEntry_target]
      split
      · exact ⟨clampGain_ge hordered, clampGain_le hordered⟩
      · cases e.gain with
        | some y => exact ⟨clampGain_ge hordered, clampGain_le hordered⟩
        | none => exact hx
  exact hfold _ _ hg

theorem boundaryWork (h : g.Fits v r) (hopen : r.state ≠ .unused) (hlegal : v[r.profile].Legal) (t : LinkTime) (entry : Bool)
    {m : Nat} (hm : m ≤ fullScale) : (g.boundaryWork v[r.profile] t entry m).Fits v r where
  inProfile _ := by
    rw [boundaryWork_target]
    exact applyStaged_inProfile hlegal t (h.inProfile hopen)
  inRange := h.inRange.boundaryWork hlegal t entry m
  reduction := by
    have hcurrent := (h.inRange.boundaryWork hlegal t entry m).current.2
    have hneed := guardNeed_le hm hcurrent hlegal.ceiling.1
    have hold := h.reduction
    rw [boundaryWork_reduction]
    unfold guardStep
    split <;> omega
  guardWindow := by
    by_cases hfull : g.windowLength entry < 75
    · obtain ⟨hlength, hcount, -⟩ := boundaryWork_window_of_lt v[r.profile] t entry m g hfull
      rw [hlength, hcount]
      have hold := h.guardWindow.1
      refine ⟨Nat.add_le_add ?_ ?_, Nat.lt_succ_iff.mp hfull⟩
      · split
        · exact le_rfl
        · exact hold
      · split <;> omega
    · obtain ⟨hlength, hcount, -⟩ := boundaryWork_window_of_ge v[r.profile] t entry m g (not_lt.mp hfull)
      rw [hlength, hcount]
      exact ⟨le_rfl, Nat.zero_le _⟩

end GainRecord.Fits

/-- Where no field of a payload is bad every field passes. -/
theorem fieldPasses_of_firstBadField {fields : List (Option Int)} (h : firstBadField fields = none) (n : Nat) (hlow : 1 ≤ n)
    (hhigh : n ≤ 16) : fieldPasses fields n = true := by
  have hpasses := List.find?_eq_none.mp h n (List.mem_map.mpr ⟨n - 1, List.mem_range.mpr (by omega), by omega⟩)
  simpa using hpasses

/-! ### The gains of all programmes -/

namespace State.GainsKept

variable {s t : State}

theorem legal (h : s.GainsKept) (p : Prog) : s.profiles[s.progs[p].profile].Legal := h.profiles _

theorem fits (h : s.GainsKept) (p : Prog) : s.gains[p].Fits s.profiles s.progs[p] := (gainsKept_iff.mp h).2 p

theorem records (h : s.GainsKept) (hprofiles : t.profiles = s.profiles)
    (hfits : ∀ p : Prog, t.gains[p].Fits s.profiles t.progs[p]) : t.GainsKept :=
  gainsKept_iff.mpr ⟨fun q => by rw [hprofiles]; exact h.profiles q, fun p => by rw [hprofiles]; exact hfits p⟩

theorem congr (h : s.GainsKept) (hprofiles : t.profiles = s.profiles) (hgains : t.gains = s.gains)
    (hopened : ∀ p, t.opened p = s.opened p) (hprofile : ∀ p : Prog, t.progs[p].profile = s.progs[p].profile) : t.GainsKept :=
  h.records hprofiles fun p => by
    rw [hgains]
    refine (h.fits p).congr fun ho => ⟨?_, hprofile p⟩
    rw [← opened_iff, ← hopened, opened_iff]
    exact ho

theorem congr_eq (h : s.GainsKept) (hprofiles : t.profiles = s.profiles) (hgains : t.gains = s.gains)
    (hprogs : t.progs = s.progs) : t.GainsKept :=
  h.congr hprofiles hgains (opened_of_progs hprogs) fun p => by rw [hprogs]

/-- One programme's records change. -/
theorem set (h : s.GainsKept) {p : Prog} {r : ProgRecord} {g : GainRecord} (hprofiles : t.profiles = s.profiles)
    (hprogs : t.progs = s.progs.set p r) (hgains : t.gains = s.gains.set p g) (hfits : g.Fits s.profiles r) : t.GainsKept :=
  h.records hprofiles fun q => by
    rw [hprogs, hgains, getElem_set_prog, getElem_set_prog]
    split
    · exact hfits
    · exact h.fits q

theorem setProg (h : s.GainsKept) {p : Prog} {r : ProgRecord} (hprofiles : t.profiles = s.profiles) (hgains : t.gains = s.gains)
    (hprogs : t.progs = s.progs.set p r)
    (hr : r.state ≠ .unused → s.progs[p].state ≠ .unused ∧ r.profile = s.progs[p].profile) : t.GainsKept :=
  h.set (g := s.gains[p]) hprofiles hprogs (hgains.trans (Vector.set_getElem_self _).symm) ((h.fits p).congr hr)

theorem setGain (h : s.GainsKept) {p : Prog} {g : GainRecord} (hprofiles : t.profiles = s.profiles) (hprogs : t.progs = s.progs)
    (hgains : t.gains = s.gains.set p g) (hfits : g.Fits s.profiles s.progs[p]) : t.GainsKept :=
  h.set (r := s.progs[p]) hprofiles (hprogs.trans (Vector.set_getElem_self _).symm) hgains hfits

/-! What a completion does (R104 to R108, R129, R140 to R142). -/

theorem setTarget (h : s.GainsKept) (p : Prog) (g : Int) : (s.setTarget p g).GainsKept := by
  by_cases ho : s.progs[p].state = .unused
  · exact h.congr_eq rfl (by rw [State.setTarget_gains, opened_eq_false ho, if_neg Bool.false_ne_true]) rfl
  · rw [setTarget_of_opened ho]
    exact h.setGain rfl rfl rfl ((h.fits p).clamped h.profiles s.progs[p] g)

theorem setProfile (h : s.GainsKept) {p : Prog} (ho : s.progs[p].state ≠ .unused) (q : ProfileNo) :
    (s.setProfile p q).GainsKept := by
  rw [setProfile_of_opened ho]
  exact h.set rfl rfl rfl ((h.fits p).clamped h.profiles { s.progs[p] with profile := q, generation := _ } _)

theorem profilePart (h : s.GainsKept) {e : Cue} (ho : s.progs[e.prog].state ≠ .unused) : (s.profilePart e).GainsKept := by
  unfold State.profilePart
  split
  · exact h.setProfile ho _
  · exact h

theorem stage (h : s.GainsKept) (e : Cue) (gain : Option Int) (snap : Bool) : (s.stage e gain snap).GainsKept := by
  by_cases ho : s.progs[e.prog].state = .unused
  · rw [stage_of_unused ho]
    exact h
  · rw [stage_of_opened ho]
    have hold := h.fits e.prog
    exact h.setGain rfl rfl rfl ⟨hold.inProfile, ⟨hold.inRange.target, hold.inRange.current⟩, hold.reduction, hold.guardWindow⟩

theorem skipCue (h : s.GainsKept) (p : Prog) : (s.skipCue p).GainsKept :=
  h.setProg (by simp) (by simp) (State.skipCue_progs s p) fun ho => ⟨ho, rfl⟩

theorem moveTo (h : s.GainsKept) {p : Prog} (ho : s.progs[p].state ≠ .unused) (st : ProgState) : (s.moveTo p st).GainsKept :=
  h.setProg (by simp) (by simp) (State.moveTo_progs s p st) fun _ => ⟨ho, by rw [ProgRecord.toState_eq]⟩

theorem requestRetune (h : s.GainsKept) (p : Prog) : (s.requestRetune p).GainsKept := h.congr_eq rfl rfl rfl

theorem idleEngine (h : s.GainsKept) : s.idleEngine.GainsKept := h.congr_eq rfl rfl rfl

theorem fill (h : s.GainsKept) (r : Reply) (st : Status) (payload : List Byte) : (s.fill r st payload).GainsKept :=
  h.congr_eq rfl rfl rfl

theorem forced (h : s.GainsKept) {p : Prog} (ho : s.progs[p].state ≠ .unused) (gain : Int) (snap : Bool) :
    (s.forced p gain snap).GainsKept := by
  have hforced : ({ s.gains[p].forced snap with
      target := clampGain (s.activeProfile p).gainMin (s.activeProfile p).gainMax gain } : GainRecord).Fits s.profiles s.progs[p] := by
    have hclamped := (h.fits p).clamped h.profiles s.progs[p] gain
    exact ⟨hclamped.inProfile, ⟨hclamped.inRange.target, hclamped.inRange.current⟩, hclamped.reduction, hclamped.guardWindow⟩
  exact h.set (t := s.forced p gain snap) rfl rfl rfl (hforced.congr fun _ => ⟨ho, by rw [ProgRecord.toState_eq]⟩)

theorem finish (h : s.GainsKept) (f : InFlight) : (s.finish f operationEffects).GainsKept := by
  refine finish_cases h.idleEngine (fun r => (h.fill r _ _).idleEngine) fun _ => ?_
  exact
    { unchanged := h.idleEngine
      reentered := idleEngine (h.congr_eq (by simp) (by simp) (by simp))
      target := fun g => (h.setTarget _ g).idleEngine
      filled := fun r st payload => (h.fill r st payload).idleEngine
      exchanged := fun ho new r payload => (((h.setProfile ho new).requestRetune _).fill r _ payload).idleEngine
      forced := fun ho gain snap r payload => ((h.forced ho gain snap).fill r _ payload).idleEngine
      released := fun ho r payload => (((h.moveTo (by rw [ho]; decide) _).requestRetune _).fill r _ payload).idleEngine
      cue := fun e _ =>
        { unchanged := h.idleEngine
          profiled := fun ho => (h.profilePart ho).idleEngine
          profiledStaged := fun ho gain snap => ((h.profilePart ho).stage e gain snap).idleEngine
          profiledSkipped := fun ho => ((h.profilePart (by rw [ho]; decide)).skipCue _).idleEngine
          skipped := fun _ => (h.skipCue _).idleEngine
          held := fun ho => ((h.moveTo ho _).stage e _ _).idleEngine
          released := fun ho => ((h.moveTo (by rw [ho]; decide) _).requestRetune _).idleEngine
          staged := fun _ => (h.stage e _ _).idleEngine } }

/-! What a request does. -/

theorem writeProfile (h : s.GainsKept) {q : ProfileNo} (hfree : ∀ p, ¬s.UsesProfile q p) {x : Profile} (hx : x.Legal) :
    (s.setProfiles (s.profiles.set q x)).GainsKept := by
  have hprofile (k : ProfileNo) : (s.profiles.set q x)[k] = if q = k then x else s.profiles[k] := by
    simp only [Fin.getElem_fin, Vector.getElem_set, Fin.ext_iff]
  refine gainsKept_iff.mpr ⟨fun k => ?_, fun p => ?_⟩
  · show (s.profiles.set q x)[k].Legal
    rw [hprofile]
    split
    · exact hx
    · exact h.profiles k
  · have hold := h.fits p
    refine ⟨fun ho => ?_, hold.inRange, hold.reduction, hold.guardWindow⟩
    show (s.profiles.set q x)[s.progs[p].profile].gainMin ≤ _ ∧ _ ≤ (s.profiles.set q x)[s.progs[p].profile].gainMax
    rw [hprofile, if_neg fun hq => hfree p ⟨ho, hq.symm⟩]
    exact hold.inProfile ho

theorem closeEffects (h : s.GainsKept) (p : Prog) : (s.closeEffects p).GainsKept := by
  have hstarted : (s.startHeldSegment p).GainsKept := by
    unfold State.startHeldSegment
    split
    · exact h.setProg (by simp) (by simp) (State.startSegment_progs s p) fun ho => ⟨ho, rfl⟩
    · exact h
  have hprogs : (s.closeEffects p).progs = (s.startHeldSegment p).progs.set p (s.startHeldSegment p).progs[p].closed := by
    simp [State.closeEffects, State.tearDown]
  have hgains : (s.closeEffects p).gains = (s.startHeldSegment p).gains.set p (s.startHeldSegment p).gains[p].closed := by
    simp [State.closeEffects, State.tearDown]
  exact hstarted.set (by simp) hprogs hgains (hstarted.fits p).closed

theorem mapped (h : s.GainsKept) (first count : Nat) (m : MapMode) (p : Prog) : (s.mapped first count m p).GainsKept := by
  by_cases haffects : s.mapAffects (s.mapSlots first count m p) p = true
  · exact h.setProg (by simp) (by simp) ((mapped_progs s first count m p).trans (if_pos haffects)) fun ho => ⟨ho, rfl⟩
  · exact h.congr_eq (by simp) (by simp) ((mapped_progs s first count m p).trans (if_neg haffects))

theorem readPresence (h : s.GainsKept) (c : Cell) : (readPresence c s).GainsKept := by
  have hprogs : (Machine.readPresence c s).progs = Vector.ofFn fun p : Prog =>
    { s.progs[p] with reference := s.progs[p].presence } := by simp [Machine.readPresence]
  refine h.congr (by simp [Machine.readPresence]) (by simp [Machine.readPresence]) (readPresence_opened c s) fun p => ?_
  rw [hprogs, getElem_ofFn_prog]

theorem resetRecord_fits (v : Vector Profile 8) : GainRecord.reset.Fits v ProgRecord.reset :=
  ⟨fun ho => absurd rfl ho, ⟨by decide, by decide⟩, by decide, by decide⟩

theorem request {i : Instr} {code : Nat} {handle : Cell → State → State} (hrow : IsRequest i code handle) (c : Cell)
    (h : s.GainsKept) : (handle c s).GainsKept := by
  have hsame (t : State) (hprofiles : t.profiles = s.profiles) (hgains : t.gains = s.gains) (hprogs : t.progs = s.progs) :
      t.GainsKept := h.congr_eq hprofiles hgains hprogs
  have hanswer {u : State} (st : Status) (payload : List Byte) (hu : u.GainsKept) : (u.answer c st payload).GainsKept :=
    hu.congr_eq rfl rfl rfl
  refine RequestCases.request (P := State.GainsKept) ?_ hrow
  exact
    { answered := fun st n payload => hsame _ (by simp) (by simp) (by simp)
      read := fun st n payload => hsame _ (by simp) (by simp) (by simp)
      writes := fun q hfree hgood => hanswer _ _ (h.writeProfile hfree (profileRecord_legal (fieldPasses_of_firstBadField hgood)))
      loads := fun k _ _ _ => hsame _ (by simp) (by simp) (by simp)
      swaps := fun set _ => hsame _ (by simp) (by simp) (by simp)
      maps := fun m p _ _ => hanswer _ _ (h.mapped _ _ m p)
      opens := fun p q _ => hanswer _ _ (h.set (t := s.openEffects p q) rfl rfl rfl (.opened h.profiles q))
      closes := fun p _ => hanswer _ _ (h.closeEffects p)
      posts := fun p o _ _ _ _ => hsame _ (by simp [State.acceptPost]) (by simp [State.acceptPost]) (by simp [State.acceptPost])
      withdraws := fun p d n => hsame _ (by simp) (by simp) (by simp)
      joins := fun op p => hsame _ (by simp) (by simp) (by simp)
      probes := fun p q _ => hsame _ (by rfl) (by rfl) (by rfl)
      presences := h.readPresence c
      marks := fun p _ => hsame _ (by simp) (by simp) (by simp)
      participates := fun retune rescale n => hsame _ (by simp) (by simp) (by simp)
      notices := fun n => hsame _ (by simp) (by simp) (by simp)
      restarts := h.records (by simp [restartPart]) fun p => by simpa [restartPart] using resetRecord_fits s.profiles }

/-! What a boundary, a frame and a departure do. -/

theorem gainBoundary (h : s.GainsKept) (t : LinkTime) (entry : Bool) : (s.gainBoundary t entry).GainsKept := by
  have hprogs : (s.gainBoundary t entry).progs = s.progs := by simp
  refine h.records (by simp) fun p => ?_
  have hrecord : (s.gainBoundary t entry).gains[p] = s.gainAfterBoundary t entry p := by simp [State.gainBoundary]
  rw [hrecord, hprogs, State.gainAfterBoundary]
  split
  · next ho =>
    exact (h.fits p).boundaryWork ((opened_iff s p).mp ho) (h.legal p) t entry (largestMagnitude_le_fullScale s p _)
  · exact h.fits p

theorem frameCheck (h : s.GainsKept) (x : Samples) : (s.frameCheck x).GainsKept := by
  refine h.records (by simp) fun p => ?_
  rw [State.frameCheck, State.setGains_gains, getElem_ofFn_prog, State.setGains_progs]
  split
  · exact (h.fits p).raiseTo (largestMagnitude_le_fullScale s p _) (h.legal p)
  · exact h.fits p

theorem gainDeparture (h : s.GainsKept) : s.gainDeparture.GainsKept := by
  refine h.records (by simp) fun p => ?_
  rw [State.gainDeparture, State.setGains_gains, getElem_ofFn_prog, State.setGains_progs]
  split
  · exact (h.fits p).departed
  · exact h.fits p

theorem afterReset (x : Straps) : (State.afterReset x).GainsKept := by
  refine gainsKept_iff.mpr ⟨fun q => ?_, fun p => ?_⟩
  · have hq : (State.afterReset x).profiles[q] = Profile.reset := by simp [State.afterReset]
    rw [hq]
    constructor <;> decide
  · simpa [State.afterReset] using resetRecord_fits (State.afterReset x).profiles

end State.GainsKept

/-- Every piece of a command's work keeps the profiles legal and the gains in their ranges. -/
theorem gainsKept_kept : KeptByCommands State.GainsKept where
  link e h := by rw [e]; exact h.congr_eq rfl rfl rfl
  countError n h := h.congr_eq rfl rfl rfl
  arrive c h := h.congr_eq (by simp) (by simp) (by simp)
  report source h := h.congr_eq (by simp) (by simp) (by simp)
  windows {s} h := h.congr (by simp) (by simp) (settleWindows_opened s) (settleWindows_profile s)
  finish f _ h := h.finish f
  swap h := h.congr_eq (by simp) (by simp) (by simp)
  count _ h := h.congr_eq (by simp) (by simp) (by simp)
  due t h := h.congr_eq (by simp) (by simp) (by simp)
  meter starts entry h := h.congr_eq (by simp) (by simp) (by simp)
  meterSettling {s} h := h.congr (by simp) (by simp) (meterSettling_opened s) (meterSettling_profile s)
  gain t entry h := h.gainBoundary t entry
  accumulate h := h.congr_eq (by simp) (by simp) (by simp)
  check x h := h.frameCheck x
  meterDeparture h := h.congr_eq (by simp) (by simp) (by simp)
  gainDeparture h := h.gainDeparture
  pinReset := State.GainsKept.afterReset
  take h := h.congr_eq (by simp) (by simp) (by simp)
  refused c st _ h := h.congr_eq rfl rfl rfl
  request i code handle c hrow _ h := h.request hrow c
  grant _ h := h.congr_eq (by simp) (by simp) (by simp)

/-- Settles O58: what every command keeps, for the profiles and the gains. -/
theorem stepsKeepTheGainsInRange : Obligations.StepsKeepTheGainsInRange := fun _ _ e h => gainsKept_kept.step e h

end Sys2Proof.Machine
end

/-! ## Every step keeps the law tables, the in-use mark and the presences (R35, R41, R75, R78, R82, R97) -/

section
namespace Sys2Proof.Machine

/-! ### Law tables (R75, R82) -/

/-- A law table whose banks are in range, whose active bank is valid, and whose shadow bank is valid while a swap is pending. -/
structure LawTable.Kept (t : LawTable) : Prop where
  inRange : t.bankA.InRange ∧ t.bankB.InRange
  active : t.activeBank.valid = true
  pending : t.pending = true → t.shadow.valid = true

theorem lawsKept_iff {s : State} : s.LawsKept ↔ ∀ t : TableNo, s.laws[t].Kept :=
  ⟨fun h t => ⟨h.inRange t, h.active t, h.pending t⟩, fun h => ⟨fun t => (h t).inRange, fun t => (h t).active, fun t => (h t).pending⟩⟩

theorem banks_inRange_iff {t : LawTable} : t.bankA.InRange ∧ t.bankB.InRange ↔ t.activeBank.InRange ∧ t.shadow.InRange := by
  unfold LawTable.activeBank LawTable.shadow
  cases t.active with
  | a => exact Iff.rfl
  | b => exact And.comm

/-- The points that a load carries are in range where none is bad (R75, R79). -/
theorem inRange_of_firstBadPoint {points : List (Option LawPoint)} {first : Nat} (h : firstBadPoint points first = none)
    {p : LawPoint} (hp : some p ∈ points) : p.inRange = true := by
  induction points generalizing first with
  | nil => cases hp
  | cons x rest ih =>
    cases x with
    | none => cases h
    | some y =>
      rw [firstBadPoint] at h
      split at h
      · next hy =>
        rcases List.mem_cons.mp hp with heq | hrest
        · cases heq
          exact hy
        · exact ih h hrest
      · cases h

theorem LawBank.InRange.load {b : LawBank} (h : b.InRange) {c : Cell}
    (hgood : firstBadPoint (Cell.loadPoints c) (Cell.index c) = none) (hfits : Cell.CountFits c) :
    (b.load (Cell.index c) (Cell.loadPoints c) (Cell.newCount c)).InRange := by
  refine ⟨?_, fun k => ?_⟩
  · show (Cell.newCount c).getD b.count ≤ 32
    cases hcount : Cell.newCount c with
    | none => exact h.1
    | some n =>
      obtain ⟨byte, hbyte, rfl⟩ := Option.map_eq_some_iff.mp hcount
      exact hfits byte hbyte
  · have hpoint : (b.load (Cell.index c) (Cell.loadPoints c) (Cell.newCount c)).points[k] =
        if Cell.index c ≤ k then (((Cell.loadPoints c).getD (k - Cell.index c) none).getD b.points[k]) else b.points[k] := by
      simp [LawBank.load]
    rw [hpoint]
    split
    · cases hcarried : (Cell.loadPoints c).getD (k - Cell.index c) none with
      | none => exact h.2 k
      | some p =>
        refine inRange_of_firstBadPoint hgood (p := p) ?_
        rw [List.getD_eq_getElem?_getD] at hcarried
        cases hat : (Cell.loadPoints c)[(k : Nat) - Cell.index c]? with
        | none => rw [hat] at hcarried; cases hcarried
        | some x =>
          rw [hat] at hcarried
          obtain rfl : x = some p := hcarried
          exact List.mem_of_getElem? hat
    · exact h.2 k

namespace LawTable.Kept

variable {t : LawTable}

theorem setShadow (h : t.Kept) (hpending : t.pending = false) {b : LawBank} (hb : b.InRange) : (t.setShadow b).Kept where
  inRange := by
    rw [banks_inRange_iff, LawTable.setShadow_activeBank, LawTable.setShadow_shadow]
    exact ⟨(banks_inRange_iff.mp h.inRange).1, hb⟩
  active := by
    rw [LawTable.setShadow_activeBank]
    exact h.active
  pending hp := by
    rw [LawTable.setShadow_pending, hpending] at hp
    cases hp

theorem mark (h : t.Kept) (hvalid : t.shadow.valid = true) : ({ t with pending := true } : LawTable).Kept :=
  ⟨h.inRange, h.active, fun _ => hvalid⟩

theorem swap (h : t.Kept) : t.swap.Kept := by
  unfold LawTable.swap
  split
  · next hpending =>
    refine ⟨h.inRange, ?_, fun hp => (nomatch hp)⟩
    have hvalid := h.pending hpending
    unfold LawTable.shadow at hvalid
    unfold LawTable.activeBank
    cases hactive : t.active with
    | a => rw [hactive] at hvalid; exact hvalid
    | b => rw [hactive] at hvalid; exact hvalid
  · exact h

theorem reset : LawTable.reset.Kept := by
  have hbank : LawBank.reset.InRange := ⟨by decide, by decide +kernel⟩
  exact ⟨⟨hbank, hbank⟩, by decide +kernel, fun hp => (nomatch hp)⟩

end LawTable.Kept

namespace State.LawsKept

variable {s t : State}

theorem congr (h : s.LawsKept) (hlaws : t.laws = s.laws) : t.LawsKept :=
  lawsKept_iff.mpr fun k => by rw [hlaws]; exact lawsKept_iff.mp h k

theorem tables (hlaws : ∀ k : TableNo, t.laws[k].Kept) : t.LawsKept := lawsKept_iff.mpr hlaws

theorem request {i : Instr} {code : Nat} {handle : Cell → State → State} (hrow : IsRequest i code handle) (c : Cell)
    (h : s.LawsKept) : (handle c s).LawsKept := by
  have hkept := lawsKept_iff.mp h
  have hsame (t : State) (hlaws : t.laws = s.laws) : t.LawsKept := h.congr hlaws
  refine RequestCases.request (P := State.LawsKept) ?_ hrow
  exact
    { answered := fun st n payload => hsame _ (by simp)
      read := fun st n payload => hsame _ (by simp)
      writes := fun q _ _ => hsame _ (by simp)
      loads := fun k hgood hfits hfree => tables fun j => by
        have htable : (s.laws.set k (s.laws[k].loaded c))[j] = if k = j then s.laws[k].loaded c else s.laws[j] := by
          simp only [Fin.getElem_fin, Vector.getElem_set, Fin.ext_iff]
        show (s.laws.set k (s.laws[k].loaded c))[j].Kept
        rw [htable]
        split
        · refine (hkept k).setShadow (Bool.eq_false_iff.mpr fun hp => hfree (.inl hp)) ?_
          exact (banks_inRange_iff.mp (hkept k).inRange).2.load hgood hfits
        · exact hkept j
      swaps := fun set hvalid => tables fun j => by
        simp only [State.answer_laws, State.setLaws_laws, Fin.getElem_fin, Vector.getElem_ofFn]
        split
        · next hj => exact (hkept j).mark (hvalid j hj).2
        · exact hkept j
      maps := fun m p _ _ => hsame _ (by simp)
      opens := fun p q _ => hsame _ (by simp)
      closes := fun p _ => hsame _ (by simp)
      posts := fun p o _ _ _ _ => hsame _ (by simp [State.acceptPost])
      withdraws := fun p d n => hsame _ (by simp)
      joins := fun op p => hsame _ (by simp)
      probes := fun p q _ => hsame _ (by rfl)
      presences := hsame _ (by simp [readPresence])
      marks := fun p _ => hsame _ (by simp)
      participates := fun retune rescale n => hsame _ (by simp)
      notices := fun n => hsame _ (by simp)
      restarts := hsame _ (by simp [restartPart]) }

end State.LawsKept

/-- Every piece of a command's work keeps the law tables. -/
theorem lawsKept_kept : KeptByCommands State.LawsKept where
  link e h := by rw [e]; exact h.congr rfl
  countError n h := h.congr rfl
  arrive c h := h.congr (by simp)
  report source h := h.congr (by simp)
  windows h := h.congr (by simp)
  finish f _ h := h.congr (by simp)
  swap {s} h := .tables fun k => by
    have htable : s.swapBoundary.laws[k] = s.laws[k].swap := by simp [State.swapBoundary]
    rw [htable]
    exact (lawsKept_iff.mp h k).swap
  count _ h := h.congr (by simp)
  due t h := h.congr (by simp)
  meter starts entry h := h.congr (by simp)
  meterSettling h := h.congr (by simp)
  gain t entry h := h.congr (by simp)
  accumulate h := h.congr (by simp)
  check x h := h.congr (by simp)
  meterDeparture h := h.congr (by simp)
  gainDeparture h := h.congr (by simp)
  pinReset x := .tables fun k => by
    have htable : (State.afterReset x).laws[k] = LawTable.reset := by simp [State.afterReset]
    rw [htable]
    exact .reset
  take h := h.congr (by simp)
  refused c st _ h := h.congr rfl
  request i code handle c hrow _ h := h.request hrow c
  grant _ h := h.congr (by simp)

/-! ### The in-use mark (R78, R97) -/

namespace State.MarkKept

variable {s t : State}

theorem congr (h : s.MarkKept) (hmark : t.lawMark = s.lawMark) (hengine : t.engine = s.engine) : t.MarkKept :=
  ⟨by rw [hmark, hengine]; exact h.mark, fun f hf => h.bound f (by rw [← hengine]; exact hf)⟩

theorem of_idle (hmark : t.lawMark = none) (hengine : t.engine = none) : t.MarkKept :=
  ⟨by rw [hmark, hengine]; rfl, fun f hf => by rw [hengine] at hf; cases hf⟩

/-- An operation that has just been granted. -/
theorem of_granted {f : InFlight} (hengine : t.engine = some f) (hmark : t.lawMark = f.snap.bank) (hnew : f.boundaries = 0) :
    t.MarkKept := by
  refine ⟨by rw [hmark, hengine]; rfl, fun g hg => ?_⟩
  rw [hengine] at hg
  cases hg
  omega

theorem cancelAutomatic (h : s.MarkKept) : s.cancelAutomatic.MarkKept := by
  unfold State.cancelAutomatic
  split
  · split
    · exact of_idle (by simp) (by simp)
    · exact h
  · exact h

theorem offerCues (h : s.MarkKept) (old : State) : (offerCues old s).MarkKept := by
  unfold Machine.offerCues
  split
  · exact h.cancelAutomatic
  · exact h

/-- The operation in flight is changed, but neither in its bank nor past its bound. -/
theorem map (h : s.MarkKept) {g : InFlight → InFlight} (hmark : t.lawMark = s.lawMark) (hengine : t.engine = s.engine.map g)
    (hbank : ∀ f, (g f).snap = f.snap) (hbound : ∀ f, s.engine = some f → (g f).boundaries ≤ 1) : t.MarkKept := by
  refine ⟨?_, fun f hf => ?_⟩
  · rw [hmark, hengine, h.mark]
    cases s.engine with
    | none => rfl
    | some f => exact congrArg Snapshot.bank (hbank f).symm
  · rw [hengine, Option.map_eq_some_iff] at hf
    obtain ⟨f', hf', rfl⟩ := hf
    exact hbound f' hf'

theorem closeEffects (h : s.MarkKept) (p : Prog) : (s.closeEffects p).MarkKept := by
  have hstarted : (s.startHeldSegment p).MarkKept := h.congr (by simp) (by simp)
  have hreported : ((s.startHeldSegment p).reportEmptied p).MarkKept := by
    unfold State.reportEmptied
    (repeat' split)
    · exact cancelAutomatic (s := (s.startHeldSegment p).draw) (hstarted.congr rfl rfl)
    · exact hstarted.congr rfl rfl
    · exact hstarted
  refine hreported.map (g := fun f => if f.prog = p then { f with discard := true } else f)
    (by simp [State.closeEffects, State.tearDown]) (by simp [State.closeEffects, State.tearDown]) (fun f => ?_) fun f hf => ?_
  · split <;> rfl
  · split <;> exact hreported.bound f hf

theorem request {i : Instr} {code : Nat} {handle : Cell → State → State} (hrow : IsRequest i code handle) (c : Cell)
    (h : s.MarkKept) : (handle c s).MarkKept := by
  have hsame (t : State) (hmark : t.lawMark = s.lawMark) (hengine : t.engine = s.engine) : t.MarkKept := h.congr hmark hengine
  have hanswer {u : State} (st : Status) (payload : List Byte) (hu : u.MarkKept) : (u.answer c st payload).MarkKept :=
    hu.congr rfl rfl
  refine RequestCases.request (P := State.MarkKept) ?_ hrow
  exact
    { answered := fun st n payload => hsame _ (by simp) (by simp)
      read := fun st n payload => hsame _ (by simp) (by simp)
      writes := fun q _ _ => hsame _ (by simp) (by simp)
      loads := fun k _ _ _ => hsame _ (by simp) (by simp)
      swaps := fun set _ => hsame _ (by simp) (by simp)
      maps := fun m p _ _ => hsame _ (by simp) (by simp)
      opens := fun p q _ => hsame _ (by simp) (by simp)
      closes := fun p _ => hanswer _ _ (h.closeEffects p)
      posts := fun p o _ _ _ _ => hanswer _ _ (offerCues (h.congr (by simp) (by simp)) s)
      withdraws := fun p d n => hsame _ (by simp) (by simp)
      joins := fun op p => cancelAutomatic (h.congr (by rfl) (by rfl))
      probes := fun p q _ => hsame _ (by rfl) (by rfl)
      presences := hsame _ (by simp [readPresence]) (by simp [readPresence])
      marks := fun p _ => hsame _ (by simp) (by simp)
      participates := fun retune rescale n => hsame _ (by simp) (by simp)
      notices := fun n => hsame _ (by simp) (by simp)
      restarts := of_idle (by simp [restartPart]) (by simp [restartPart]) }

theorem grants : KeptByGrants State.MarkKept where
  abort h := h.congr rfl rfl
  dropProbe _ h := h.congr rfl rfl
  directive _ _ _ := of_granted rfl rfl rfl
  cue _ _ _ := of_granted rfl rfl rfl
  probe _ _ := of_granted rfl rfl rfl
  rescale _ _ := of_granted rfl rfl rfl
  retune _ _ := of_granted rfl rfl rfl

end State.MarkKept

/-- Every piece of a command's work keeps the mark on the bank of the operation in flight. -/
theorem markKept_kept : KeptByCommands State.MarkKept where
  link e h := by rw [e]; exact h.congr rfl rfl
  countError n h := h.congr rfl rfl
  arrive c h := h.congr (by simp) (by simp)
  report source h := h.congr (by simp) (by simp)
  windows h := h.congr (by simp) (by simp)
  finish f _ _ := .of_idle rfl rfl
  swap h := h.congr (by simp) (by simp)
  count hidle h := h.map (g := fun f => { f with boundaries := f.boundaries + 1 }) rfl rfl (fun _ => rfl)
    fun f hf => by rw [hidle f hf]
  due {s} t h := .offerCues (s := { s with cues := s.cues.map (Cue.checkDue t), owed := 0 }) (h.congr rfl rfl) s
  meter starts entry h := h.congr (by simp) (by simp)
  meterSettling h := h.congr (by simp) (by simp)
  gain t entry h := .offerCues (h.congr (by simp) (by simp)) _
  accumulate h := h.congr (by simp) (by simp)
  check x h := h.congr (by simp) (by simp)
  meterDeparture h := h.congr (by simp) (by simp)
  gainDeparture h := h.congr (by simp) (by simp)
  pinReset x := .of_idle rfl rfl
  take h := h.congr (by simp) (by simp)
  refused c st _ h := h.congr rfl rfl
  request i code handle c hrow _ h := h.request hrow c
  grant _ h := State.MarkKept.grants.grantNext h

/-! ### Presence (R35, R41) -/

/-- A record whose presence agrees with its state. -/
structure ProgRecord.Agrees (r : ProgRecord) : Prop where
  unused : r.state = .unused → r.presence = .silent
  dormant : r.state = .dormant → r.presence = .silent
  tracking : r.state = .tracking → r.presence = .present

theorem presenceKept_iff {s : State} : s.PresenceKept ↔ s.AllRecords fun _ r => r.Agrees :=
  ⟨fun h p => ⟨h.unused p, h.dormant p, h.tracking p⟩, fun h => ⟨fun p => (h p).unused, fun p => (h p).dormant, fun p => (h p).tracking⟩⟩

theorem ProgRecord.Agrees.of_eq {r r' : ProgRecord} (h : r.Agrees) (hstate : r'.state = r.state)
    (hpresence : r'.presence = r.presence) : r'.Agrees where
  unused hr := by rw [hpresence]; exact h.unused (hstate ▸ hr)
  dormant hr := by rw [hpresence]; exact h.dormant (hstate ▸ hr)
  tracking hr := by rw [hpresence]; exact h.tracking (hstate ▸ hr)

/-- A change of presence moves a programme in use to the state that agrees with it (R41). -/
theorem ProgRecord.Agrees.afterReport {r : ProgRecord} (h : r.Agrees) (hopen : r.state ≠ .unused) (q : Profile)
    (l : Option Int) : (r.afterReport q l).Agrees := by
  unfold ProgRecord.afterReport
  split
  · next hsame => exact h.of_eq rfl hsame
  · next hchanged =>
    rw [ProgRecord.toState_eq]
    cases hst : r.state with
    | unused => exact absurd hst hopen
    | dormant =>
      have hold := h.dormant hst
      cases hpr : (r.report q l).presence with
      | silent => exact absurd (hpr.trans hold.symm) hchanged
      | present => exact ⟨fun hr => (nomatch hr), fun hr => (nomatch hr), fun _ => rfl⟩
    | tracking =>
      have hold := h.tracking hst
      cases hpr : (r.report q l).presence with
      | silent => exact ⟨fun hr => (nomatch hr), fun _ => rfl, fun hr => (nomatch hr)⟩
      | present => exact absurd (hpr.trans hold.symm) hchanged
    | held | overridden => exact ⟨fun hr => (nomatch hr), fun hr => (nomatch hr), fun hr => (nomatch hr)⟩

theorem agrees_rule (i : Instr) : RecordRule i fun _ r => r.Agrees where
  same _ r r' hstate hpresence h := h.of_eq hstate hpresence
  report _ r q l hopen h := h.afterReport hopen q l
  move _ r st hopen hst _ := by
    rw [ProgRecord.toState_eq]
    rcases hst with rfl | rfl | rfl
    · exact ⟨fun hr => (nomatch hr), fun hr => (nomatch hr), fun hr => (nomatch hr)⟩
    · exact ⟨fun hr => (nomatch hr), fun hr => (nomatch hr), fun hr => (nomatch hr)⟩
    · cases hpr : r.presence with
      | silent => exact ⟨fun hr => (nomatch hr), fun _ => rfl, fun hr => (nomatch hr)⟩
      | present => exact ⟨fun hr => (nomatch hr), fun hr => (nomatch hr), fun _ => rfl⟩
  opens _ _ r q hunused h := ⟨fun hr => (nomatch hr), fun _ => h.unused hunused, fun hr => (nomatch hr)⟩
  closes _ _ r _ _ := ⟨fun _ => rfl, fun hr => (nomatch hr), fun hr => (nomatch hr)⟩
  resets _ _ := ⟨fun _ => rfl, fun hr => (nomatch hr), fun hr => (nomatch hr)⟩

/-- Settles O59: what every command keeps, for the law tables, the mark and the records. -/
theorem stepsKeepTheLawsAndTheMark : Obligations.StepsKeepTheLawsAndTheMark := by
  refine fun s t e => ⟨lawsKept_kept.step e, markKept_kept.step e, ?_⟩
  refine step_keeps (P := State.PresenceKept) (fun _ _ h => ⟨h.unused, h.dormant, h.tracking⟩)
    (fun i s t e h => ?_) e
  exact presenceKept_iff.mpr (exec_records (agrees_rule i) (presenceKept_iff.mp h) e)

end Sys2Proof.Machine
end

/-! ## Every step keeps the link side in its bounds (R5 to R10, R16) -/

section
namespace Sys2Proof.Machine

/-! ### The receiver -/

theorem onSuperframe_iff {t : LinkTime} : onSuperframe t = true ↔ t.toNat % 16 = 0 := by
  rw [onSuperframe, beq_iff_eq, ← BitVec.toNat_inj, BitVec.extractLsb'_toNat]
  rfl

theorem onSuperframe_add {t : LinkTime} (h : onSuperframe t = true) : onSuperframe (t + 16) = true := by
  rw [onSuperframe_iff] at h ⊢
  have hsum : (t + 16).toNat = (t.toNat + 16) % 4294967296 := BitVec.toNat_add t 16
  omega

theorem onSuperframe_of_headerValid {w0 w1 : ServiceWord} (h : headerValid w0 w1 = true) : onSuperframe w1 = true :=
  (Bool.and_eq_true_iff.mp h).2

/-- A receiver that holds what its lock state gives it. -/
structure Receiver.Kept (r : Receiver) : Prop where
  search : r.lock = .search → r.words = [] ∧ r.expected = none ∧ r.slip = none ∧ r.settle = none ∧ r.errorRun = 0
  frames : r.lock ≠ .search → 1 ≤ r.words.length ∧ r.words.length ≤ 16
  locked : r.lock = .settling ∨ r.lock = .running →
    onSuperframe r.time = true ∧ (∃ e, r.expected = some e ∧ onSuperframe e = true) ∧ r.errorRun ≤ 1
  settle : r.settle.isSome = true ↔ r.lock = .settling
  periods : r.periods ≤ r.nextTimeout

theorem linkKept_iff {s : State} : s.LinkKept ↔ s.delay.length = 128 ∧ s.rx.Kept :=
  ⟨fun h => ⟨h.delay, h.search, h.frames, h.locked, h.settle, h.periods⟩,
    fun ⟨hdelay, h⟩ => ⟨hdelay, h.search, h.frames, h.locked, h.settle, h.periods⟩⟩

namespace Receiver.Kept

variable {r : Receiver}

theorem toSearch (r : Receiver) : r.toSearch.Kept where
  search _ := ⟨rfl, rfl, rfl, rfl, rfl⟩
  frames h := absurd rfl h
  locked h := by rcases h with h | h <;> cases h
  settle := by simp [Receiver.toSearch, Receiver.reset]
  periods := Nat.zero_le _

theorem heard (h : r.Kept) : r.heard.Kept := ⟨h.search, h.frames, h.locked, h.settle, Nat.zero_le _⟩

theorem passPeriod (h : r.Kept) (htime : r.periods < r.nextTimeout) : r.passPeriod.Kept :=
  ⟨h.search, h.frames, h.locked, h.settle, htime⟩

theorem setWords (h : r.Kept) (hlock : r.lock ≠ .search) {words : List ServiceWord} (hlow : 1 ≤ words.length)
    (hhigh : words.length ≤ 16) : (r.setWords words).Kept :=
  ⟨fun hs => absurd hs hlock, fun _ => ⟨hlow, hhigh⟩, h.locked, h.settle, h.periods⟩

/-- A header error that does not end the lock leaves a run of 1. -/
theorem takeError (h : r.Kept) (hlock : r.lock = .settling ∨ r.lock = .running) (hrun : ¬2 ≤ r.errorRun + 1) :
    r.takeError.Kept where
  search hs := by
    have hs : r.lock = .search := hs
    rw [hs] at hlock
    rcases hlock with hlock | hlock <;> cases hlock
  frames := h.frames
  locked _ := by
    obtain ⟨htime, hexpected, -⟩ := h.locked hlock
    exact ⟨htime, hexpected, not_lt.mp hrun⟩
  settle := h.settle
  periods := h.periods

theorem passTimeout (h : r.Kept) : r.passTimeout.Kept where
  search := h.search
  frames := h.frames
  locked := h.locked
  settle := h.settle
  periods := h.periods.trans (by simp only [Receiver.nextTimeout, Receiver.passTimeout]; omega)

theorem startSuperframe (h : r.Kept) (hlock : r.lock = .settling ∨ r.lock = .running) (n : Nat) (w : ServiceWord) :
    (r.startSuperframe n w).Kept := by
  obtain ⟨-, ⟨e, hexpected, htime⟩, hrun⟩ := h.locked hlock
  have hnext := onSuperframe_add htime
  have hsettle := h.settle
  unfold Receiver.startSuperframe
  rw [hexpected]
  dsimp only [Option.getD_some]
  rcases hlock with hlock | hlock
  · obtain ⟨k, hk⟩ := Option.isSome_iff_exists.mp (hsettle.mpr hlock)
    rw [hlock, hk]
    split
    · exact ⟨fun hs => (nomatch hs), fun _ => ⟨le_rfl, by simp⟩, fun _ => ⟨htime, ⟨_, rfl, hnext⟩, hrun⟩, by simp, h.periods⟩
    · exact ⟨fun hs => (nomatch hs), fun _ => ⟨le_rfl, by simp⟩, fun _ => ⟨htime, ⟨_, rfl, hnext⟩, hrun⟩, by simp, h.periods⟩
  · have hnone : r.settle = none := by
      rw [← Option.not_isSome_iff_eq_none, hsettle, hlock]
      decide
    rw [hlock, hnone]
    exact ⟨fun hs => (nomatch hs), fun _ => ⟨le_rfl, by simp⟩, fun _ => ⟨htime, ⟨_, rfl, hnext⟩, hrun⟩, by simp, h.periods⟩

/-- A valid header, whatever it does to the slip candidate. -/
theorem takeValid (h : r.Kept) (hlock : r.lock = .settling ∨ r.lock = .running) (hop : Byte) (slip : Option LinkTime)
    {expected : Option LinkTime} (hexpected : ∃ e, expected = some e ∧ onSuperframe e = true) :
    ({ r.takeValid hop with slip := slip, expected := expected } : Receiver).Kept where
  search hs := by
    have hs : r.lock = .search := hs
    rw [hs] at hlock
    rcases hlock with hlock | hlock <;> cases hlock
  frames := h.frames
  locked _ := ⟨(h.locked hlock).1, hexpected, Nat.zero_le _⟩
  settle := h.settle
  periods := h.periods

theorem enterSettling (h : r.Kept) {w0 w1 : ServiceWord} (hvalid : headerValid w0 w1 = true) :
    (r.enterSettling w0 w1).Kept where
  search hs := nomatch hs
  frames _ := by simp [Receiver.enterSettling]
  locked _ := by
    have htime := onSuperframe_of_headerValid hvalid
    exact ⟨htime, ⟨_, rfl, onSuperframe_add htime⟩, Nat.zero_le _⟩
  settle := by simp [Receiver.enterSettling]
  periods := h.periods

end Receiver.Kept

/-! ### Header errors and header checks -/

section Errors

variable {s : State}

theorem headerError_kept (h : s.rx.Kept) (hlock : s.rx.lock = .settling ∨ s.rx.lock = .running) : s.headerError.rx.Kept := by
  rw [headerError_rx]
  split
  · exact .toSearch _
  · next hrun => exact h.takeError hlock hrun

theorem takeTimeout_kept (h : s.rx.Kept) : s.takeTimeout.rx.Kept := by
  rw [takeTimeout_rx]
  split
  · exact h
  · exact .toSearch _
  · next hl =>
    split
    · exact .toSearch _
    · next hrun => exact h.passTimeout.takeError (.inl hl) hrun
  · next hl =>
    split
    · exact .toSearch _
    · next hrun => exact h.passTimeout.takeError (.inr hl) hrun

theorem takeOwedTimeout_kept (h : s.rx.Kept) : s.takeOwedTimeout.rx.Kept := by
  unfold State.takeOwedTimeout
  split
  · exact takeTimeout_kept h
  · exact h

/-- Once a header error that was due has been taken, none is due (R9). -/
theorem takeOwedTimeout_framesInTime (h : s.rx.Kept) (hlock : s.takeOwedTimeout.rx.lock ≠ .search) :
    s.takeOwedTimeout.framesInTime := by
  have hreset (r : Receiver) : r.toSearch.periods < r.toSearch.nextTimeout := by
    simp [Receiver.toSearch, Receiver.reset, Receiver.nextTimeout]
  have herror : s.rx.passTimeout.takeError.periods < s.rx.passTimeout.takeError.nextTimeout := by
    have hperiods := h.periods
    simp only [Receiver.takeError, Receiver.passTimeout, Receiver.nextTimeout] at hperiods ⊢
    omega
  unfold State.framesInTime
  by_cases hdue : s.rx.nextTimeout ≤ s.rx.periods
  · rw [takeOwedTimeout_due hdue] at hlock ⊢
    rw [takeTimeout_rx] at hlock ⊢
    cases hl : s.rx.lock with
    | search => rw [hl] at hlock; exact absurd hl hlock
    | confirm => exact hreset _
    | settling | running =>
      dsimp only
      split
      · exact hreset _
      · exact herror
  · rw [takeOwedTimeout_inTime (not_le.mp hdue)]
    exact not_le.mp hdue

/-- A header check leaves the lock, or ends it (R7, R8). -/
theorem checkHeader_kept (h : s.rx.Kept) (hlock : s.rx.lock = .settling ∨ s.rx.lock = .running) (w0 w1 : ServiceWord) :
    (s.checkHeader w0 w1).rx.Kept := by
  have hsearch : s.rx.lock ≠ .search := by rcases hlock with hl | hl <;> rw [hl] <;> decide
  have hwords : (s.rx.setWords [w0, w1]).Kept := h.setWords hsearch (by simp) (by simp)
  unfold State.checkHeader
  dsimp only
  split
  · exact hwords
  · split
    · next hvalid =>
      obtain ⟨-, hexpected, -⟩ := hwords.locked hlock
      unfold State.validHeader
      dsimp only
      split
      · exact hwords.takeValid hlock (hopOf w0) none hexpected
      · split
        · exact hwords.takeValid hlock (hopOf w0) none ⟨_, rfl, onSuperframe_add (onSuperframe_of_headerValid hvalid)⟩
        · exact hwords.takeValid hlock (hopOf w0) (some w1) hexpected
    · exact headerError_kept (s := s.setRx (s.rx.setWords [w0, w1])) hwords hlock

end Errors

/-! ### The delay line (R16) -/

@[simp] theorem passFrame_delay (s : State) (x : Samples) : (s.passFrame x).delay = s.delay.drop 1 ++ [x] := by
  unfold State.passFrame
  dsimp only
  split <;> simp [State.carryFrame]

theorem length_shifted {l : List Samples} (h : l.length = 128) (x : Samples) : (l.drop 1 ++ [x]).length = 128 := by
  simp [h]

/-! ### The commands of the link side -/

namespace State.LinkKept

variable {s t : State}

theorem rx (h : s.LinkKept) : s.rx.Kept := (linkKept_iff.mp h).2

theorem congr (h : s.LinkKept) (hrx : t.rx = s.rx) (hdelay : t.delay = s.delay) : t.LinkKept :=
  linkKept_iff.mpr ⟨by rw [hdelay]; exact h.delay, by rw [hrx]; exact h.rx⟩

theorem setRx (h : s.LinkKept) {r : Receiver} (hr : r.Kept) : (s.setRx r).LinkKept := linkKept_iff.mpr ⟨h.delay, hr⟩

theorem carried (h : s.LinkKept) (hrx : t.rx = s.rx) {x : Samples} (hdelay : t.delay = s.delay.drop 1 ++ [x]) : t.LinkKept :=
  linkKept_iff.mpr ⟨by rw [hdelay]; exact length_shifted h.delay x, by rw [hrx]; exact h.rx⟩

theorem passFrame (h : s.LinkKept) (x : Samples) : (s.passFrame x).LinkKept := h.carried (by simp) (passFrame_delay s x)

theorem takeOwedTimeout (h : s.LinkKept) : s.takeOwedTimeout.LinkKept :=
  linkKept_iff.mpr ⟨by simpa using h.delay, takeOwedTimeout_kept h.rx⟩

theorem onePeriod (h : s.LinkKept) (htime : s.rx.lock ≠ .search → s.framesInTime) : s.onePeriod.LinkKept := by
  unfold State.onePeriod
  cases hl : s.rx.lock with
  | search => exact h.congr (by simp) (by simp)
  | confirm =>
    have hpassed := h.setRx (h.rx.passPeriod (htime (by rw [hl]; decide)))
    exact hpassed.congr (by simp) (by simp)
  | settling | running => exact h.setRx (h.rx.passPeriod (htime (by rw [hl]; decide)))

/-- Outside SEARCH a reference period is counted and the receiver keeps the rest (R9). -/
theorem onePeriod_rx {s : State} (hlock : s.rx.lock ≠ .search) : s.onePeriod.rx = s.rx.passPeriod := by
  unfold State.onePeriod
  cases hl : s.rx.lock with
  | search => exact absurd hl hlock
  | confirm => simp
  | settling | running => rfl

theorem passPeriods (h : s.LinkKept) (hlock : s.rx.lock ≠ .search) (n : Nat) (hn : s.rx.periods + n ≤ s.rx.nextTimeout) :
    (s.passPeriods n).LinkKept := by
  induction n generalizing s with
  | zero => exact h
  | succ n ih =>
    have hrx := onePeriod_rx hlock
    refine ih (h.onePeriod fun _ => ?_) (by rw [hrx]; exact hlock) ?_
    · show s.rx.periods < s.rx.nextTimeout
      omega
    · rw [hrx]
      show s.rx.periods + 1 + n ≤ s.rx.nextTimeout
      omega

theorem missFrames (h : s.LinkKept) : (missFrames s).LinkKept := by
  unfold Machine.missFrames
  split
  · exact h
  · next hlock =>
    have hperiods := h.periods
    have hpassed := h.passPeriods hlock (s.rx.nextTimeout - s.rx.periods) (by omega)
    exact linkKept_iff.mpr ⟨by simpa using hpassed.delay, takeTimeout_kept hpassed.rx⟩

theorem searchFrame (h : s.LinkKept) (f : Frame) : (s.searchFrame f).LinkKept := by
  have hexamined : (s.examineFrame f.service).LinkKept := by
    have hold := h.rx
    exact h.setRx ⟨hold.search, hold.frames, hold.locked, hold.settle, hold.periods⟩
  unfold State.searchFrame
  split
  · next w0 _ =>
    split
    · refine carried (s := s.enterConfirm w0 f.service) (linkKept_iff.mpr ⟨by simp [State.enterConfirm, silentDelay], ?_⟩) rfl (x := f.samples) rfl
      exact ⟨fun hs => (nomatch hs), fun _ => ⟨by simp [State.enterConfirm], by simp [State.enterConfirm]⟩,
        fun hs => (by rcases hs with hs | hs <;> cases hs), by simp [State.enterConfirm, Receiver.reset], Nat.zero_le _⟩
    · exact hexamined
  · exact hexamined

theorem confirmFrame (h : s.LinkKept) (hlock : s.rx.lock = .confirm) (f : Frame) : (s.confirmFrame f).LinkKept := by
  have hsearch : s.rx.lock ≠ .search := by rw [hlock]; decide
  obtain ⟨hlow, hhigh⟩ := h.frames hsearch
  have hcarried {r : Receiver} (hr : r.Kept) : ((s.setRx r).carryFrame f.samples).LinkKept := carried (h.setRx hr) rfl rfl
  unfold State.confirmFrame
  split
  · exact hcarried (h.rx.setWords hsearch (by simp) (by simp))
  · next h16 =>
    split
    · next w0 _ =>
      unfold State.secondHeader
      split
      · next hvalid =>
        split
        · exact hcarried (h.rx.enterSettling hvalid)
        · have hreturned := Receiver.Kept.toSearch s.rx
          exact h.setRx ⟨hreturned.search, hreturned.frames, hreturned.locked, hreturned.settle, hreturned.periods⟩
      · exact h.setRx (.toSearch _)
    · refine hcarried (h.rx.setWords hsearch ?_ ?_)
      · simp
      · simp only [List.length_append, List.length_singleton]
        omega

theorem heldFrame (h : s.LinkKept) (hlock : s.rx.lock = .settling ∨ s.rx.lock = .running) (f : Frame) :
    (s.heldFrame f).LinkKept := by
  have hsearch : s.rx.lock ≠ .search := by rcases hlock with hl | hl <;> rw [hl] <;> decide
  obtain ⟨hlow, hhigh⟩ := h.frames hsearch
  have hchecked (w0 : ServiceWord) : (s.checkHeader w0 f.service).LinkKept :=
    linkKept_iff.mpr ⟨by simpa using h.delay, checkHeader_kept h.rx hlock w0 f.service⟩
  refine heldFrame_cases (P := State.LinkKept) (fun _ => passFrame ?_ _) (fun w0 _ _ => hchecked w0)
    (fun w0 _ _ => (hchecked w0).passFrame _) fun h16 _ => passFrame (h.setRx (h.rx.setWords hsearch ?_ ?_)) _
  · have hrx : (s.atStart f.service).rx = s.rx.startSuperframe (settleLength s.straps) f.service := rfl
    have hstart : (s.atStart f.service).LinkKept := by
      refine linkKept_iff.mpr ⟨?_, by rw [hrx]; exact h.rx.startSuperframe hlock _ _⟩
      unfold State.atStart
      split
      · simpa using h.delay
      · exact h.delay
    refine startSuperframe_cases (P := State.LinkKept) (fun _ => hstart.congr rfl rfl) fun u entry o _ hu => ?_
    have hbegun : u.LinkKept := by
      rcases hu with rfl | rfl
      · exact hstart
      · exact hstart.congr rfl rfl
    exact hbegun.congr (by simp) (by simp)
  · simp
  · simp only [List.length_append, List.length_singleton]
    omega

theorem frameArrives (h : s.LinkKept) (f : Frame) : (s.frameArrives f).LinkKept := by
  have htaken := h.takeOwedTimeout
  have hheard := htaken.setRx htaken.rx.heard
  exact frameArrives_cases (P := State.LinkKept) (fun _ => hheard.searchFrame f) (fun hl => hheard.confirmFrame hl f)
    fun hl => hheard.heldFrame hl f

theorem request {i : Instr} {code : Nat} {handle : Cell → State → State} (hrow : IsRequest i code handle) (c : Cell)
    (h : s.LinkKept) : (handle c s).LinkKept := by
  have hsame (t : State) (hrx : t.rx = s.rx) (hdelay : t.delay = s.delay) : t.LinkKept := h.congr hrx hdelay
  refine RequestCases.request (P := State.LinkKept) ?_ hrow
  exact
    { answered := fun st n payload => hsame _ (by simp) (by simp)
      read := fun st n payload => hsame _ (by simp) (by simp)
      writes := fun q _ _ => hsame _ (by simp) (by simp)
      loads := fun k _ _ _ => hsame _ (by simp) (by simp)
      swaps := fun set _ => hsame _ (by simp) (by simp)
      maps := fun m p _ _ => hsame _ (by simp) (by simp)
      opens := fun p q _ => hsame _ (by simp) (by simp)
      closes := fun p _ => hsame _ (by simp) (by simp)
      posts := fun p o _ _ _ _ => hsame _ (by simp [State.acceptPost]) (by simp [State.acceptPost])
      withdraws := fun p d n => hsame _ (by simp) (by simp)
      joins := fun op p => hsame _ (by simp) (by simp)
      probes := fun p q _ => hsame _ (by rfl) (by rfl)
      presences := hsame _ (by simp [readPresence]) (by simp [readPresence])
      marks := fun p _ => hsame _ (by simp) (by simp)
      participates := fun retune rescale n => hsame _ (by simp) (by simp)
      notices := fun n => hsame _ (by simp) (by simp)
      restarts := hsame _ (by simp [restartPart]) (by simp [restartPart]) }

theorem afterReset (x : Straps) : (State.afterReset x).LinkKept :=
  linkKept_iff.mpr ⟨by simp [State.afterReset, silentDelay], .toSearch Receiver.reset⟩

theorem commands (h : s.LinkKept) (i : Instr) : CommandCases State.LinkKept i s where
  unchanged := h
  pinReset x _ := (afterReset x).congr rfl rfl
  frame f := h.frameArrives f
  windows := h.congr (by simp) (by simp)
  period := h.takeOwedTimeout.onePeriod fun hlock => takeOwedTimeout_framesInTime h.rx hlock
  missing := h.missFrames
  take := h.congr (by simp) (by simp)
  refused c st _ := h.congr rfl rfl
  request i code handle c hrow _ := h.request hrow c
  grant _ := h.congr (by simp) (by simp)
  finish f _ := h.congr (by simp) (by simp)

end State.LinkKept
end Sys2Proof.Machine
end

/-! ## Every step keeps the Meter in its bounds (R48, R49, R51, R54, R55, R64) -/

section
namespace Sys2Proof.Machine

/-! ### A Meter record -/

/-- A Meter record whose collections keep their limits (R54, R55). -/
structure MeterRecord.Bounded (m : MeterRecord) : Prop where
  ring : m.ring.length ≤ 30
  bins : ∀ k : Fin 300, m.histogram[k] ≤ 65535
  total : m.total < 2 ^ 32

namespace MeterRecord.Bounded

variable {m : MeterRecord}

theorem emptied (hring : m.ring = []) (hhistogram : m.histogram = Vector.replicate 300 0) (htotal : m.total = 0) : m.Bounded :=
  ⟨by rw [hring]; exact Nat.zero_le _, fun k => by simp [hhistogram], by rw [htotal]; decide⟩

theorem congr {n : MeterRecord} (h : m.Bounded) (hring : n.ring = m.ring) (hhistogram : n.histogram = m.histogram)
    (htotal : n.total = m.total) : n.Bounded :=
  ⟨by rw [hring]; exact h.ring, fun k => by rw [hhistogram]; exact h.bins k, by rw [htotal]; exact h.total⟩

theorem startSegment (m : MeterRecord) : m.startSegment.Bounded := emptied rfl rfl rfl

theorem closeBlock (h : m.Bounded) (entry : Bool) : (m.closeBlock entry).Bounded := by
  unfold MeterRecord.closeBlock
  split
  · split <;> exact h.congr rfl rfl rfl
  · exact h.congr rfl rfl rfl

theorem enterRing {l : Int} (h : m.ring.length ≤ 30) : (enterRing m.ring l).length ≤ 30 := by
  simp only [Machine.enterRing, List.length_drop, List.length_append, List.length_singleton]
  omega

theorem countWindow (h : m.Bounded) (l : Int) : (m.countWindow l).Bounded where
  ring := h.ring
  bins k := by
    have hbin : (m.countWindow l).histogram[k] = if binOf l = k then min 65535 (m.histogram[binOf l]'(by unfold binOf; omega) + 1)
        else m.histogram[k] := by
      simp [MeterRecord.countWindow, Vector.getElem_set]
    rw [hbin]
    split
    · exact min_le_left _ _
    · exact h.bins k
  total := lt_of_le_of_lt (min_le_left _ _) (by decide)

theorem takeWindow (h : m.Bounded) (st : ProgState) (gate : Int) (l : Option Int) : (m.takeWindow st gate l).Bounded := by
  have hentered (x : Int) : ({ m with ring := Machine.enterRing m.ring x } : MeterRecord).Bounded :=
    ⟨enterRing h.ring, h.bins, h.total⟩
  have hcounted (x : Int) : (if gate ≤ x then ({ m with ring := Machine.enterRing m.ring x } : MeterRecord).countWindow x
      else { m with ring := Machine.enterRing m.ring x }).Bounded := by
    split
    · exact (hentered x).countWindow x
    · exact hentered x
  unfold MeterRecord.takeWindow
  split
  · exact hcounted _
  · exact hcounted _
  · exact hcounted _
  · exact h

end MeterRecord.Bounded

theorem takeWindow_frame (m : MeterRecord) (st : ProgState) (gate : Int) (l : Option Int) :
    (m.takeWindow st gate l).window = m.window ∧ (m.takeWindow st gate l).complete = m.complete ∧
    (m.takeWindow st gate l).frames = m.frames := by
  unfold MeterRecord.takeWindow
  dsimp only
  (repeat' split) <;> exact ⟨rfl, rfl, rfl⟩

/-! ### What settles before a boundary does to the Meter records (R51, R52) -/

theorem completeWindow_meters (s : State) (p : Prog) (blocks : List BlockPower) : (s.completeWindow p blocks).meters =
    s.meters.set p (({ s.meters[p] with complete := none } : MeterRecord).takeWindow s.progs[p].state
      (s.activeProfile p).absoluteGate (windowLoudness blocks)) := by
  unfold State.completeWindow
  dsimp only
  split <;> simp

/-- A Meter record once the windows of a boundary are settled: a waiting window is gone, a window counting stays or is begun anew,
and its block goes on. -/
structure MeterRecord.Settled (m n : MeterRecord) : Prop where
  complete : n.complete = none
  window : n.window = m.window ∨ n.window = m.window.map fun _ => []
  frames : n.frames = m.frames
  bounded : m.Bounded → n.Bounded

theorem settleWindow_settled (starts : ProgSet) (s : State) (p : Prog) :
    s.meters[p].Settled (State.settleWindow starts s p).meters[p] ∧
      ∀ q, q ≠ p → (State.settleWindow starts s p).meters[q] = s.meters[q] := by
  have hset {t : State} {m : MeterRecord} (hmeters : t.meters = s.meters.set p m) (hm : s.meters[p].Settled m) :
      s.meters[p].Settled t.meters[p] ∧ ∀ q, q ≠ p → t.meters[q] = s.meters[q] := by
    refine ⟨?_, fun q hq => ?_⟩
    · rw [hmeters, getElem_set_prog, if_pos rfl]
      exact hm
    · rw [hmeters, getElem_set_prog, if_neg hq.symm]
  unfold State.settleWindow
  split
  · exact hset (State.startSegment_meters s p) ⟨rfl, .inr rfl, rfl, fun _ => .startSegment _⟩
  · split
    · next blocks hblocks =>
      obtain ⟨hwindow, hcomplete, hframes⟩ := takeWindow_frame { s.meters[p] with complete := none } s.progs[p].state
        (s.activeProfile p).absoluteGate (windowLoudness blocks)
      exact hset (completeWindow_meters s p blocks) ⟨hcomplete, .inl hwindow, hframes,
        fun h => .takeWindow (m := { s.meters[p] with complete := none }) (h.congr rfl rfl rfl) _ _ _⟩
    · next hnone => exact ⟨⟨hnone, .inl rfl, rfl, id⟩, fun _ _ => rfl⟩

theorem foldl_settleWindow_settled (starts : ProgSet) (l : List Prog) (hl : l.Nodup) (s : State) (p : Prog) :
    (p ∈ l → s.meters[p].Settled (l.foldl (State.settleWindow starts) s).meters[p]) ∧
      (p ∉ l → (l.foldl (State.settleWindow starts) s).meters[p] = s.meters[p]) := by
  induction l generalizing s with
  | nil => exact ⟨fun hp => (nomatch hp), fun _ => rfl⟩
  | cons q l ih =>
    obtain ⟨hnot, hrest⟩ := List.nodup_cons.mp hl
    obtain ⟨hin, hout⟩ := ih hrest (State.settleWindow starts s q)
    obtain ⟨hsettled, hothers⟩ := settleWindow_settled starts s q
    rw [List.foldl_cons]
    refine ⟨fun hp => ?_, fun hp => ?_⟩
    · rcases List.mem_cons.mp hp with rfl | hp
      · rw [hout hnot]
        exact hsettled
      · have hne : p ≠ q := fun hpq => hnot (hpq ▸ hp)
        rw [← hothers p hne]
        exact hin hp
    · rw [List.mem_cons, not_or] at hp
      rw [hout hp.2, hothers p hp.1]

/-- Where the Meter holds a boundary's segment starts, every window is settled; else none waits to be (R51). -/
theorem settleWindows_settled {s : State} {starts : ProgSet} (h : s.heldStarts = some starts) (p : Prog) :
    s.meters[p].Settled s.settleWindows.meters[p] := by
  have hfold := (foldl_settleWindow_settled starts allProgs (List.nodup_finRange 16) s p).1 (List.mem_finRange p)
  unfold State.settleWindows
  rw [h]
  exact hfold

theorem settleWindows_of_none {s : State} (h : s.heldStarts = none) : s.settleWindows = s := by
  unfold State.settleWindows
  rw [h]

theorem startSegment_opened (s : State) (p q : Prog) : (s.startSegment p).opened q = s.opened q := by
  rw [State.opened, State.startSegment_progs, getElem_set_prog]
  split
  · next hpq => rw [← hpq]; rfl
  · rfl

/-! ### The collections, the waiting windows and the windows counting -/

/-- What `MeterKept` says of the Meter's records but for the frames begun and the lock state. -/
structure State.MetersBounded (s : State) : Prop where
  bounded : ∀ p : Prog, s.meters[p].Bounded
  window : ∀ p : Prog, ∀ blocks, s.meters[p].window = some blocks → s.opened p = true ∧ blocks.length ≤ 74
  waiting : ∀ p : Prog, ∀ blocks, s.meters[p].complete = some blocks → s.heldStarts.isSome = true ∧ blocks.length = 75

namespace State.MetersBounded

variable {s t : State}

/-- Each programme's Meter record stays or is another that keeps what is to be kept. -/
theorem records (h : s.MetersBounded) (hheld : t.heldStarts.isSome = s.heldStarts.isSome)
    (hmeters : ∀ p : Prog, (t.meters[p] = s.meters[p] ∧ t.opened p = s.opened p) ∨
      (t.meters[p].Bounded ∧ (∀ blocks, t.meters[p].window = some blocks → t.opened p = true ∧ blocks.length ≤ 74) ∧
        (t.meters[p].complete = none ∨ t.meters[p].complete = s.meters[p].complete))) : t.MetersBounded where
  bounded p := by
    rcases hmeters p with ⟨hsame, -⟩ | ⟨hbounded, -⟩
    · rw [hsame]; exact h.bounded p
    · exact hbounded
  window p blocks hblocks := by
    rcases hmeters p with ⟨hsame, hopened⟩ | ⟨-, hwindow, -⟩
    · rw [hsame] at hblocks; rw [hopened]; exact h.window p blocks hblocks
    · exact hwindow blocks hblocks
  waiting p blocks hblocks := by
    rw [hheld]
    rcases hmeters p with ⟨hsame, -⟩ | ⟨-, -, hnone | hsame⟩
    · rw [hsame] at hblocks; exact h.waiting p blocks hblocks
    · rw [hnone] at hblocks; cases hblocks
    · rw [hsame] at hblocks; exact h.waiting p blocks hblocks

theorem congr (h : s.MetersBounded) (hmeters : t.meters = s.meters) (hheld : t.heldStarts = s.heldStarts)
    (hopened : ∀ p, t.opened p = s.opened p) : t.MetersBounded :=
  h.records (by rw [hheld]) fun p => .inl ⟨by rw [hmeters], hopened p⟩

theorem congr_eq (h : s.MetersBounded) (hmeters : t.meters = s.meters) (hheld : t.heldStarts = s.heldStarts)
    (hprogs : t.progs = s.progs) : t.MetersBounded :=
  h.congr hmeters hheld (opened_of_progs hprogs)

theorem of_reset (hmeters : s.meters = Vector.replicate 16 .reset) : s.MetersBounded := by
  have hrecord (p : Prog) : s.meters[p] = MeterRecord.reset := by simp [hmeters]
  refine ⟨fun p => ?_, fun p blocks hblocks => ?_, fun p blocks hblocks => ?_⟩
  · rw [hrecord]; exact .emptied rfl rfl rfl
  · rw [hrecord] at hblocks; cases hblocks
  · rw [hrecord] at hblocks; cases hblocks

/-- One programme's Meter record is replaced. -/
theorem set (h : s.MetersBounded) {p : Prog} {m : MeterRecord} (hmeters : t.meters = s.meters.set p m)
    (hheld : t.heldStarts.isSome = s.heldStarts.isSome) (hopened : ∀ q, q ≠ p → t.opened q = s.opened q) (hm : m.Bounded)
    (hwindow : ∀ blocks, m.window = some blocks → t.opened p = true ∧ blocks.length ≤ 74)
    (hcomplete : m.complete = none ∨ m.complete = s.meters[p].complete) : t.MetersBounded := by
  refine h.records hheld fun q => ?_
  rw [hmeters, getElem_set_prog]
  split
  · next hpq => exact .inr ⟨hm, hpq ▸ hwindow, hpq ▸ hcomplete⟩
  · next hne => exact .inl ⟨rfl, hopened q (Ne.symm hne)⟩

theorem settleWindows (h : s.MetersBounded) : s.settleWindows.MetersBounded := by
  cases hheld : s.heldStarts with
  | none => rw [settleWindows_of_none hheld]; exact h
  | some starts =>
    have hsettled := settleWindows_settled hheld
    refine ⟨fun p => (hsettled p).bounded (h.bounded p), fun p blocks hblocks => ?_, fun p blocks hblocks => ?_⟩
    · rw [settleWindows_opened]
      rcases (hsettled p).window with hsame | hbegun
      · exact h.window p blocks (by rw [← hsame]; exact hblocks)
      · rw [hbegun, Option.map_eq_some_iff] at hblocks
        obtain ⟨old, hold, rfl⟩ := hblocks
        exact ⟨(h.window p old hold).1, Nat.zero_le _⟩
    · rw [(hsettled p).complete] at hblocks
      cases hblocks

/-- A segment start, with whatever becomes of the segment-reset mark. -/
theorem startSegment (h : s.MetersBounded) {p : Prog} {m : MeterRecord} (hmeters : t.meters = s.meters.set p m)
    (hheld : t.heldStarts = s.heldStarts) (hopened : ∀ q, t.opened q = s.opened q) (hm : m.Bounded)
    (hwindow : m.window = s.meters[p].window.map fun _ => []) (hcomplete : m.complete = none) : t.MetersBounded := by
  refine h.set hmeters (by rw [hheld]) (fun q _ => hopened q) hm (fun blocks hblocks => ?_) (.inl hcomplete)
  rw [hwindow, Option.map_eq_some_iff] at hblocks
  obtain ⟨old, hold, rfl⟩ := hblocks
  rw [hopened]
  exact ⟨(h.window p old hold).1, Nat.zero_le _⟩

theorem meterSettling (h : s.MetersBounded) : s.meterSettling.MetersBounded := by
  refine foldl_invariant (P := State.MetersBounded) (fun u p hu => ?_) _ h
  unfold State.takeResetMark
  split
  · have hmeters : ((u.setMeter p { u.meters[p] with resetMark := false }).startSegment p).meters =
        u.meters.set p ({ u.meters[p] with resetMark := false } : MeterRecord).startSegment := by
      simp
    exact hu.startSegment hmeters (by simp) (fun q => startSegment_opened _ p q) (.startSegment _) rfl rfl
  · exact hu

theorem closeBlock (h : s.MetersBounded) {p : Prog} (hopen : s.opened p = true) (entry : Bool) :
    (s.meters[p].closeBlock entry).Bounded ∧
    (∀ blocks, (s.meters[p].closeBlock entry).window = some blocks → s.opened p = true ∧ blocks.length ≤ 74) ∧
    (∀ blocks, (s.meters[p].closeBlock entry).complete = some blocks → blocks.length = 75) := by
  refine ⟨(h.bounded p).closeBlock entry, fun blocks hblocks => ?_, fun blocks hblocks => ?_⟩
  · unfold MeterRecord.closeBlock at hblocks
    split at hblocks
    · next old hold =>
      have hlength := (h.window p old hold).2
      split at hblocks
      · cases hblocks
        exact ⟨hopen, Nat.zero_le _⟩
      · next hne =>
        cases hblocks
        exact ⟨hopen, by rw [List.length_append, List.length_singleton]; omega⟩
    · cases hblocks
      exact ⟨hopen, Nat.zero_le _⟩
  · unfold MeterRecord.closeBlock at hblocks
    split at hblocks
    · split at hblocks
      · next h74 =>
        cases hblocks
        rw [List.length_append, List.length_singleton, h74]
      · exact (h.waiting p blocks hblocks).2
    · exact (h.waiting p blocks hblocks).2

theorem meterBoundary (h : s.MetersBounded) (starts : ProgSet) (entry : Bool) : (s.meterBoundary starts entry).MetersBounded := by
  have hrecord (p : Prog) : (s.meterBoundary starts entry).meters[p] =
      if s.opened p then s.meters[p].closeBlock entry else s.meters[p] := by
    simp [State.meterBoundary]
  have hopened (p : Prog) : (s.meterBoundary starts entry).opened p = s.opened p := opened_of_progs (by simp) p
  refine ⟨fun p => ?_, fun p blocks hblocks => ?_, fun p blocks hblocks => ⟨rfl, ?_⟩⟩
  · rw [hrecord]
    split
    · next hopen => exact (h.closeBlock hopen entry).1
    · exact h.bounded p
  · rw [hrecord] at hblocks
    rw [hopened]
    split at hblocks
    · next hopen => exact (h.closeBlock hopen entry).2.1 blocks hblocks
    · exact h.window p blocks hblocks
  · rw [hrecord] at hblocks
    split at hblocks
    · next hopen => exact (h.closeBlock hopen entry).2.2 blocks hblocks
    · exact (h.waiting p blocks hblocks).2

theorem accumulate (h : s.MetersBounded) : s.accumulate.MetersBounded := by
  have hopened (p : Prog) : s.accumulate.opened p = s.opened p := opened_of_progs (by simp) p
  refine h.records (by simp) fun p => ?_
  have hrecord : s.accumulate.meters[p] = if s.opened p then
      { s.meters[p] with sum := s.meters[p].sum + s.framePower p, frames := s.meters[p].frames + 1 } else s.meters[p] := by
    simp [State.accumulate]
  rw [hrecord]
  split
  · exact .inr ⟨(h.bounded p).congr rfl rfl rfl, fun blocks hblocks => by rw [hopened]; exact h.window p blocks hblocks, .inr rfl⟩
  · exact .inl ⟨rfl, hopened p⟩

theorem meterDeparture (h : s.MetersBounded) : s.meterDeparture.MetersBounded := by
  have hopened (p : Prog) : s.meterDeparture.opened p = s.opened p := opened_of_progs (by simp) p
  refine h.records (by simp) fun p => ?_
  have hrecord : s.meterDeparture.meters[p] = if s.opened p then
      { s.meters[p] with sum := 0, frames := 0, window := none } else s.meters[p] := by
    simp [State.meterDeparture]
  rw [hrecord]
  split
  · exact .inr ⟨(h.bounded p).congr rfl rfl rfl, fun blocks hblocks => (nomatch hblocks), .inr rfl⟩
  · exact .inl ⟨rfl, hopened p⟩

end State.MetersBounded
end Sys2Proof.Machine
end

/-! ## Every step keeps the Meter and the link side in their bounds -/

section
namespace Sys2Proof.Machine

namespace State.MetersBounded

variable {s t : State}

theorem openEffects (h : s.MetersBounded) (p : Prog) (q : ProfileNo) : (s.openEffects p q).MetersBounded := by
  refine h.set (p := p) (m := s.meters[p].opened) rfl (by simp) (fun r hr => ?_) (.emptied rfl rfl rfl)
    (fun blocks hblocks => (nomatch hblocks)) (.inl rfl)
  rw [openEffects_opened, if_neg hr.symm]

theorem closeEffects (h : s.MetersBounded) (p : Prog) : (s.closeEffects p).MetersBounded := by
  have hstarted : (s.startHeldSegment p).MetersBounded := by
    unfold State.startHeldSegment
    split
    · exact h.startSegment (State.startSegment_meters s p) (by simp) (startSegment_opened s p) (.startSegment _) rfl rfl
    · exact h
  have hmeters : (s.closeEffects p).meters = (s.startHeldSegment p).meters.set p (s.startHeldSegment p).meters[p].closed := by
    simp [State.closeEffects, State.tearDown]
  have hheld : (s.closeEffects p).heldStarts = s.heldStarts.map fun set => ProgSet.erase set p := by
    simp [State.closeEffects, State.tearDown]
  have hopened (q : Prog) : (s.startHeldSegment p).opened q = s.opened q := by
    unfold State.startHeldSegment
    split
    · exact startSegment_opened s p q
    · rfl
  refine hstarted.set hmeters (by simp [hheld]) (fun q hq => ?_) ((hstarted.bounded p).congr rfl rfl rfl)
    (fun blocks hblocks => (nomatch hblocks)) (.inl rfl)
  rw [closeEffects_opened, if_neg hq.symm, hopened]

/-- A Meter record of one programme changes in other things than its collections and its windows. -/
theorem setMeter (h : s.MetersBounded) {p : Prog} {m : MeterRecord} (hmeters : t.meters = s.meters.set p m)
    (hheld : t.heldStarts = s.heldStarts) (hprogs : t.progs = s.progs) (hm : s.meters[p].Bounded → m.Bounded)
    (hwindow : m.window = s.meters[p].window) (hcomplete : m.complete = s.meters[p].complete) : t.MetersBounded := by
  have hopened := opened_of_progs hprogs
  refine h.set hmeters (by rw [hheld]) (fun q _ => hopened q) (hm (h.bounded p)) (fun blocks hblocks => ?_) (.inr hcomplete)
  rw [hopened]
  exact h.window p blocks (hwindow ▸ hblocks)

theorem request {i : Instr} {code : Nat} {handle : Cell → State → State} (hrow : IsRequest i code handle) (c : Cell)
    (h : s.MetersBounded) : (handle c s).MetersBounded := by
  have hsame (t : State) (hmeters : t.meters = s.meters) (hheld : t.heldStarts = s.heldStarts) (hprogs : t.progs = s.progs) :
      t.MetersBounded := h.congr_eq hmeters hheld hprogs
  have hanswer {u : State} (st : Status) (payload : List Byte) (hu : u.MetersBounded) : (u.answer c st payload).MetersBounded :=
    hu.congr_eq rfl rfl rfl
  refine RequestCases.request (P := State.MetersBounded) ?_ hrow
  exact
    { answered := fun st n payload => hsame _ (by simp) (by simp) (by simp)
      read := fun st n payload => hsame _ (by simp) (by simp) (by simp)
      writes := fun q _ _ => hsame _ (by simp) (by simp) (by simp)
      loads := fun k _ _ _ => hsame _ (by simp) (by simp) (by simp)
      swaps := fun set _ => hsame _ (by simp) (by simp) (by simp)
      maps := fun m p _ _ => hanswer _ _ (h.congr (by simp) (by simp) (mapped_opened s _ _ m p))
      opens := fun p q _ => hanswer _ _ (h.openEffects p q)
      closes := fun p _ => hanswer _ _ (h.closeEffects p)
      posts := fun p o _ _ _ _ => hsame _ (by simp [State.acceptPost]) (by simp [State.acceptPost]) (by simp [State.acceptPost])
      withdraws := fun p d n => hsame _ (by simp) (by simp) (by simp)
      joins := fun op p => hsame _ (by simp) (by simp) (by simp)
      probes := fun p q _ => hsame _ (by rfl) (by rfl) (by rfl)
      presences := h.congr (by simp [readPresence]) (by simp [readPresence]) (readPresence_opened c s)
      marks := fun p _ => hanswer _ _ (h.setMeter (t := s.setMeter p _) rfl rfl rfl (fun hm => hm.congr rfl rfl rfl) rfl rfl)
      participates := fun retune rescale n => hsame _ (by simp) (by simp) (by simp)
      notices := fun n => hsame _ (by simp) (by simp) (by simp)
      restarts := of_reset (by simp [restartPart]) }

theorem grants : KeptByGrants State.MetersBounded where
  abort h := h.congr_eq rfl rfl rfl
  dropProbe _ h := h.congr_eq rfl rfl rfl
  directive _ _ h := h.congr_eq rfl rfl rfl
  cue e _ h := h.setMeter (t := State.grantCue _ e) rfl rfl rfl (fun hm => hm.congr rfl rfl rfl) rfl rfl
  probe _ h := h.congr_eq rfl rfl rfl
  rescale p h := h.setMeter (t := State.grantAutomatic _ _ p) rfl rfl rfl (fun hm => hm.congr rfl rfl rfl) rfl rfl
  retune p h := h.setMeter (t := State.grantAutomatic _ _ p) rfl rfl rfl (fun hm => hm.congr rfl rfl rfl) rfl rfl

end State.MetersBounded

/-- Every piece of a command's work keeps the Meter's collections and windows in their limits. -/
theorem metersBounded_kept : KeptByCommands State.MetersBounded where
  link e h := by rw [e]; exact h.congr_eq rfl rfl rfl
  countError n h := h.congr_eq rfl rfl rfl
  arrive c h := h.congr_eq (by simp) (by simp) (by simp)
  report source h := h.congr_eq (by simp) (by simp) (by simp)
  windows h := h.settleWindows
  finish f hf h := h.congr (by simp) (by simp) (finish_opened hf)
  swap h := h.congr_eq (by simp) (by simp) (by simp)
  count _ h := h.congr_eq (by simp) (by simp) (by simp)
  due t h := h.congr_eq (by simp) (by simp) (by simp)
  meter starts entry h := h.meterBoundary starts entry
  meterSettling h := h.meterSettling
  gain t entry h := h.congr_eq (by simp) (by simp) (by simp)
  accumulate h := h.accumulate
  check x h := h.congr_eq (by simp) (by simp) (by simp)
  meterDeparture h := h.meterDeparture
  gainDeparture h := h.congr_eq (by simp) (by simp) (by simp)
  pinReset x := .of_reset rfl
  take h := h.congr_eq (by simp) (by simp) (by simp)
  refused c st _ h := h.congr_eq rfl rfl rfl
  request i code handle c hrow _ h := h.request hrow c
  grant _ h := State.MetersBounded.grants.grantNext h

/-! ### Windows count in RUNNING alone, over a block begun (R48, R49, R64) -/

/-- No programme has a window. -/
def State.NoWindows (s : State) : Prop := ∀ p : Prog, s.meters[p].window = none

/-- A programme has a window in RUNNING alone, and then frames in its block. -/
structure State.WindowsCount (s : State) : Prop where
  running : s.rx.lock ≠ .running → s.NoWindows
  frames : ∀ p : Prog, s.meters[p].window ≠ none → 1 ≤ s.meters[p].frames

theorem meterKept_iff {s : State} : s.MeterKept ↔ s.MetersBounded ∧ s.WindowsCount := by
  constructor
  · intro h
    refine ⟨⟨fun p => ⟨h.ring p, h.bins p, h.total p⟩, fun p blocks hp => ?_, h.waiting⟩, fun hlock p => ?_, fun p hp => ?_⟩
    · obtain ⟨-, hopen, hlength, -⟩ := h.window p blocks hp
      exact ⟨hopen, hlength⟩
    · by_contra hp
      obtain ⟨blocks, hblocks⟩ := Option.ne_none_iff_exists'.mp hp
      exact hlock (h.window p blocks hblocks).1
    · obtain ⟨blocks, hblocks⟩ := Option.ne_none_iff_exists'.mp hp
      exact (h.window p blocks hblocks).2.2.2
  · rintro ⟨hbounded, hcount⟩
    refine ⟨fun p => (hbounded.bounded p).ring, fun p => (hbounded.bounded p).bins, fun p => (hbounded.bounded p).total,
      fun p blocks hp => ?_, hbounded.waiting⟩
    have hwindow : s.meters[p].window ≠ none := by rw [hp]; exact Option.some_ne_none _
    obtain ⟨hopen, hlength⟩ := hbounded.window p blocks hp
    refine ⟨?_, hopen, hlength, hcount.frames p hwindow⟩
    by_contra hlock
    exact hwindow (hcount.running hlock p)

/-- `t` has no window that `s` has not, and the frames of its blocks are those of `s`. -/
def State.FewerWindows (s t : State) : Prop :=
  ∀ p : Prog, t.meters[p].window ≠ none → s.meters[p].window ≠ none ∧ t.meters[p].frames = s.meters[p].frames

namespace State.FewerWindows

variable {s t : State}

theorem of_eq (h : t.meters = s.meters) : s.FewerWindows t := fun p hp => ⟨by rw [← h]; exact hp, by rw [h]⟩

theorem of_set {p : Prog} {m : MeterRecord} (hmeters : t.meters = s.meters.set p m)
    (hm : m.window ≠ none → s.meters[p].window ≠ none ∧ m.frames = s.meters[p].frames) : s.FewerWindows t := by
  intro q hq
  rw [hmeters, getElem_set_prog] at hq ⊢
  split at hq
  · next hpq =>
    rw [if_pos hpq]
    exact hpq ▸ hm hq
  · next hpq =>
    rw [if_neg hpq]
    exact ⟨hq, rfl⟩

theorem trans {u : State} (h : s.FewerWindows t) (g : t.FewerWindows u) : s.FewerWindows u := by
  intro p hp
  obtain ⟨ht, hframes⟩ := g p hp
  obtain ⟨hs, hframes'⟩ := h p ht
  exact ⟨hs, hframes.trans hframes'⟩

theorem noWindows (h : s.FewerWindows t) (hs : s.NoWindows) : t.NoWindows := fun p => by
  by_contra hp
  exact (h p hp).1 (hs p)

theorem map_ne_none {o : Option (List BlockPower)} (h : (o.map fun _ => ([] : List BlockPower)) ≠ none) : o ≠ none :=
  fun ho => h (by rw [ho]; rfl)

theorem settleWindows (s : State) : s.FewerWindows s.settleWindows := by
  cases hheld : s.heldStarts with
  | none => rw [settleWindows_of_none hheld]; exact .of_eq rfl
  | some starts =>
    intro p hp
    have hsettled := settleWindows_settled hheld p
    refine ⟨?_, hsettled.frames⟩
    rcases hsettled.window with hsame | hbegun
    · rw [← hsame]; exact hp
    · rw [hbegun] at hp; exact map_ne_none hp

theorem startSegment (s : State) (p : Prog) : s.FewerWindows (s.startSegment p) :=
  .of_set (State.startSegment_meters s p) fun hm => ⟨map_ne_none hm, rfl⟩

theorem meterSettling (s : State) : s.FewerWindows s.meterSettling := by
  refine foldl_invariant (P := fun u => s.FewerWindows u) (fun u p hu => hu.trans ?_) _ (.of_eq rfl)
  unfold State.takeResetMark
  split
  · exact trans (t := u.setMeter p { u.meters[p] with resetMark := false }) (.of_set rfl fun hm => ⟨hm, rfl⟩) (startSegment _ p)
  · exact .of_eq rfl

theorem settleBeforeBoundary (s : State) : s.FewerWindows s.settleBeforeBoundary := by
  refine (settleWindows s).trans (.of_eq ?_)
  unfold State.settleBeforeBoundary
  dsimp only
  (repeat' split) <;> simp

theorem closeEffects (s : State) (p : Prog) : s.FewerWindows (s.closeEffects p) := by
  have hstarted : s.FewerWindows (s.startHeldSegment p) := by
    unfold State.startHeldSegment
    split
    · exact startSegment s p
    · exact .of_eq rfl
  refine hstarted.trans (.of_set (p := p) (m := (s.startHeldSegment p).meters[p].closed) ?_ fun hm => absurd rfl hm)
  simp [State.closeEffects, State.tearDown]

theorem request {i : Instr} {code : Nat} {handle : Cell → State → State} (hrow : IsRequest i code handle) (c : Cell)
    (s : State) : s.FewerWindows (handle c s) ∧ (handle c s).rx = s.rx := by
  have hsame (t : State) (hmeters : t.meters = s.meters) (hrx : t.rx = s.rx) : s.FewerWindows t ∧ t.rx = s.rx :=
    ⟨.of_eq hmeters, hrx⟩
  refine RequestCases.request (P := fun t => s.FewerWindows t ∧ t.rx = s.rx) ?_ hrow
  exact
    { answered := fun st n payload => hsame _ (by simp) (by simp)
      read := fun st n payload => hsame _ (by simp) (by simp)
      writes := fun q _ _ => hsame _ (by simp) (by simp)
      loads := fun k _ _ _ => hsame _ (by simp) (by simp)
      swaps := fun set _ => hsame _ (by simp) (by simp)
      maps := fun m p _ _ => hsame _ (by simp) (by simp)
      opens := fun p q _ => ⟨.of_set (p := p) (m := s.meters[p].opened) rfl fun hm => absurd rfl hm, by simp⟩
      closes := fun p _ => ⟨(closeEffects s p).trans (.of_eq rfl), by simp⟩
      posts := fun p o _ _ _ _ => hsame _ (by simp [State.acceptPost]) (by simp [State.acceptPost])
      withdraws := fun p d n => hsame _ (by simp) (by simp)
      joins := fun op p => hsame _ (by simp) (by simp)
      probes := fun p q _ => hsame _ (by rfl) (by rfl)
      presences := hsame _ (by simp [readPresence]) (by simp [readPresence])
      marks := fun p _ => ⟨.of_set (p := p) (m := { s.meters[p] with resetMark := true }) rfl fun hm => ⟨hm, rfl⟩, by simp⟩
      participates := fun retune rescale n => hsame _ (by simp) (by simp)
      notices := fun n => hsame _ (by simp) (by simp)
      restarts := by
        refine ⟨fun p hp => absurd ?_ hp, by simp [restartPart]⟩
        simp [restartPart, MeterRecord.reset] }

theorem grants (s : State) : KeptByGrants fun t => s.FewerWindows t where
  abort h := h.trans (.of_eq rfl)
  dropProbe _ h := h.trans (.of_eq rfl)
  directive _ _ h := h.trans (.of_eq rfl)
  cue e _ h := h.trans (.of_set (t := State.grantCue _ e) rfl fun hm => ⟨hm, rfl⟩)
  probe _ h := h.trans (.of_eq rfl)
  rescale p h := h.trans (.of_set (t := State.grantAutomatic _ _ p) rfl fun hm => ⟨hm, rfl⟩)
  retune p h := h.trans (.of_set (t := State.grantAutomatic _ _ p) rfl fun hm => ⟨hm, rfl⟩)

end State.FewerWindows

theorem passFrame_meters (s : State) (x : Samples) :
    (s.passFrame x).meters = if s.rx.lock = .running then (s.carryFrame x).accumulate.meters else s.meters := by
  unfold State.passFrame
  dsimp only
  split <;> simp

namespace State.WindowsCount

variable {s t : State}

theorem fewer (h : s.WindowsCount) (hlock : t.rx.lock = s.rx.lock) (hfewer : s.FewerWindows t) : t.WindowsCount where
  running hne := hfewer.noWindows (h.running (by rw [← hlock]; exact hne))
  frames p hp := by
    obtain ⟨hs, hframes⟩ := hfewer p hp
    rw [hframes]
    exact h.frames p hs

theorem congr (h : s.WindowsCount) (hlock : t.rx.lock = s.rx.lock) (hmeters : t.meters = s.meters) : t.WindowsCount :=
  h.fewer hlock (.of_eq hmeters)

theorem of_noWindows (h : s.NoWindows) : s.WindowsCount := ⟨fun _ => h, fun p hp => absurd (h p) hp⟩

/-- Outside RUNNING a change of the lock state changes nothing here. -/
theorem stopped (h : s.WindowsCount) (hlock : s.rx.lock ≠ .running) (hmeters : t.meters = s.meters) : t.WindowsCount :=
  of_noWindows (State.FewerWindows.noWindows (.of_eq hmeters) (h.running hlock))

/-- The departure from RUNNING takes every window (R64). -/
theorem loseLock (h : s.WindowsCount) (hbounded : s.MetersBounded) : s.loseLock.WindowsCount := by
  by_cases hlock : s.rx.lock = .running
  · refine of_noWindows fun p => ?_
    have hrecord : s.loseLock.meters[p] = if s.opened p then
        { s.meters[p] with sum := 0, frames := 0, window := none } else s.meters[p] := by
      simp [State.loseLock, hlock, State.meterDeparture]
    rw [hrecord]
    split
    · rfl
    · next hclosed =>
      by_contra hp
      obtain ⟨blocks, hblocks⟩ := Option.ne_none_iff_exists'.mp hp
      exact hclosed (hbounded.window p blocks hblocks).1
  · refine h.stopped hlock ?_
    simp [State.loseLock, hlock]

theorem headerError (h : s.WindowsCount) (hbounded : s.MetersBounded) : s.headerError.WindowsCount := by
  unfold State.headerError
  dsimp only
  split
  · exact loseLock (h.congr (by simp) (by simp)) (hbounded.congr_eq (by simp) (by simp) (by simp))
  · exact h.congr (by simp) (by simp)

theorem takeTimeout (h : s.WindowsCount) (hbounded : s.MetersBounded) : s.takeTimeout.WindowsCount := by
  unfold State.takeTimeout
  cases hl : s.rx.lock with
  | search => exact h
  | confirm => exact h.stopped (by rw [hl]; decide) (by simp)
  | settling | running => exact headerError (h.congr (by simp) (by simp)) (hbounded.congr_eq (by simp) (by simp) (by simp))

theorem takeOwedTimeout (h : s.WindowsCount) (hbounded : s.MetersBounded) : s.takeOwedTimeout.WindowsCount := by
  unfold State.takeOwedTimeout
  split
  · exact h.takeTimeout hbounded
  · exact h

theorem checkHeader (h : s.WindowsCount) (hbounded : s.MetersBounded) (w0 w1 : ServiceWord) :
    (s.checkHeader w0 w1).WindowsCount := by
  unfold State.checkHeader State.validHeader
  dsimp only
  split
  · exact h.congr (by simp) (by simp)
  · split
    · (repeat' split) <;> exact h.congr (by simp) (by simp)
    · exact headerError (h.congr (by simp) (by simp)) (hbounded.congr_eq (by simp) (by simp) (by simp))

/-- A frame of RUNNING is added to the block of every programme in use (R47). -/
theorem passFrame (hrunning : s.rx.lock ≠ .running → s.NoWindows) (hbounded : s.MetersBounded) (x : Samples) :
    (s.passFrame x).WindowsCount := by
  have hmeters := passFrame_meters s x
  by_cases hlock : s.rx.lock = .running
  · rw [if_pos hlock] at hmeters
    refine ⟨fun hne => absurd (by simpa using hlock) hne, fun p hp => ?_⟩
    have hrecord : (s.passFrame x).meters[p] = if s.opened p then
        { s.meters[p] with sum := s.meters[p].sum + (s.carryFrame x).framePower p, frames := s.meters[p].frames + 1 }
        else s.meters[p] := by
      have hopened := opened_of_progs (s := s) (t := s.carryFrame x) (by simp) p
      simp [hmeters, State.accumulate, hopened]
    rw [hrecord] at hp ⊢
    split at hp
    · next hopen =>
      rw [if_pos hopen]
      exact Nat.succ_le_succ (Nat.zero_le _)
    · next hclosed =>
      obtain ⟨blocks, hblocks⟩ := Option.ne_none_iff_exists'.mp hp
      exact absurd (hbounded.window p blocks hblocks).1 hclosed
  · rw [if_neg hlock] at hmeters
    exact of_noWindows (State.FewerWindows.noWindows (.of_eq hmeters) (hrunning hlock))

/-- A superframe start leaves windows in RUNNING alone. -/
theorem startSuperframe (h : s.WindowsCount) (w : ServiceWord) :
    (s.startSuperframe w).rx.lock ≠ .running → (s.startSuperframe w).NoWindows := by
  have hstart : (s.atStart w).rx.lock ≠ .running → (s.atStart w).NoWindows := by
    intro hne
    have hlock : s.rx.lock ≠ .running := by
      intro hl
      have hrx : (s.atStart w).rx = s.rx.startSuperframe (settleLength s.straps) w := rfl
      rw [hrx] at hne
      exact hne (by simp [Receiver.startSuperframe, hl])
    refine State.FewerWindows.noWindows ?_ (h.running hlock)
    unfold State.atStart
    split
    · exact State.FewerWindows.settleBeforeBoundary s
    · exact .of_eq rfl
  refine startSuperframe_cases (P := fun t => t.rx.lock ≠ .running → t.NoWindows) (fun _ => hstart) fun u entry o _ hu hne => ?_
  have hbegun : u.rx.lock ≠ .running → u.NoWindows := by
    rcases hu with rfl | rfl <;> exact hstart
  have hlock : u.rx.lock ≠ .running := by simpa using hne
  refine State.FewerWindows.noWindows ?_ (hbegun hlock)
  have hwork : u.boundaryWork (s.rx.expected.getD 0) entry = u.swapBoundary.countBoundary.meterSettling := by
    simp [State.boundaryWork, hlock]
  have hmeters : (u.startBoundary (s.rx.expected.getD 0) entry o).meters = u.swapBoundary.countBoundary.meterSettling.meters := by
    rw [startBoundary_eq, hwork]
  have hsettling : u.FewerWindows u.swapBoundary.countBoundary.meterSettling :=
    State.FewerWindows.trans (t := u.swapBoundary.countBoundary) (.of_eq (by simp)) (State.FewerWindows.meterSettling _)
  exact hsettling.trans (.of_eq hmeters)

theorem frameArrives (h : s.WindowsCount) (hbounded : s.MetersBounded) (f : Frame) : (s.frameArrives f).WindowsCount := by
  have K := metersBounded_kept.toKeptByFrames
  have hheard : (s.takeOwedTimeout.setRx s.takeOwedTimeout.rx.heard).WindowsCount :=
    (h.takeOwedTimeout hbounded).congr rfl rfl
  have hheardBounded : (s.takeOwedTimeout.setRx s.takeOwedTimeout.rx.heard).MetersBounded :=
    K.setRx (K.takeOwedTimeout hbounded) _
  refine frameArrives_cases (P := State.WindowsCount) (fun hl => ?_) (fun hl => ?_) fun _ => ?_
  · exact hheard.stopped (by simp [hl]) (by simp)
  · exact hheard.stopped (by simp [hl]) (by simp)
  · refine heldFrame_cases (P := State.WindowsCount) (fun _ => ?_) (fun w0 _ _ => hheard.checkHeader hheardBounded w0 _)
      (fun w0 _ _ => ?_) fun _ _ => ?_
    · exact passFrame (hheard.startSuperframe f.service) (K.startSuperframe hheardBounded f.service) f.samples
    · exact passFrame (hheard.checkHeader hheardBounded w0 f.service).running (K.checkHeader hheardBounded w0 f.service) f.samples
    · refine passFrame ?_ ?_ f.samples
      · exact hheard.running
      · exact K.setRx hheardBounded _

/-- A period of the reference clock changes neither the lock state nor the Meter. -/
theorem onePeriod (h : s.WindowsCount) : s.onePeriod.WindowsCount := by
  refine h.congr ?_ (by simp)
  by_cases hlock : s.rx.lock = .search
  · unfold State.onePeriod
    rw [hlock]
    simp [hlock]
  · rw [State.LinkKept.onePeriod_rx hlock]
    rfl

theorem missFrames (h : s.WindowsCount) (hbounded : s.MetersBounded) : (missFrames s).WindowsCount := by
  have hpassed (n : Nat) : ∀ {u : State}, u.WindowsCount → (u.passPeriods n).WindowsCount := by
    induction n with
    | zero => exact fun hu => hu
    | succ n ih => exact fun hu => ih hu.onePeriod
  unfold Machine.missFrames
  split
  · exact h
  · exact takeTimeout (hpassed _ h) (metersBounded_kept.toKeptByFrames.passPeriods _ hbounded)

theorem commands (h : s.WindowsCount) (hbounded : s.MetersBounded) (i : Instr) : CommandCases State.WindowsCount i s where
  unchanged := h
  pinReset x _ := of_noWindows fun p => by simp [State.afterReset, MeterRecord.reset]
  frame f := h.frameArrives hbounded f
  windows := h.fewer (by simp) (State.FewerWindows.settleWindows s)
  period := (h.takeOwedTimeout hbounded).onePeriod
  missing := h.missFrames hbounded
  take := h.congr (by simp) (by simp)
  refused c st _ := h.congr rfl rfl
  request i code handle c hrow _ := by
    obtain ⟨hfewer, hrx⟩ := State.FewerWindows.request hrow c s
    exact h.fewer (by rw [hrx]) hfewer
  grant _ := h.fewer (by simp) ((State.FewerWindows.grants s).grantNext (.of_eq rfl))
  finish f _ := h.congr (by simp) (by simp)

end State.WindowsCount

/-- Settles O60: what every command keeps, for the Meter's records, for the windows counting and for the receiver. -/
theorem stepsKeepTheMeterAndTheLink : Obligations.StepsKeepTheMeterAndTheLink := by
  refine fun s t e => ⟨fun h => ?_, ?_⟩
  · refine meterKept_iff.mpr (step_keeps (P := fun s => s.MetersBounded ∧ s.WindowsCount) (fun u queue hu => ?_)
      (fun i u v hv hu => ?_) e (meterKept_iff.mp h))
    · exact ⟨hu.1.congr_eq rfl rfl rfl, hu.2.congr rfl rfl⟩
    · exact ⟨metersBounded_kept.exec hv hu.1, exec_cases (hu.2.commands hu.1 i) hv⟩
  · exact step_keeps (P := State.LinkKept) (fun _ _ h => h.congr rfl rfl) (fun i u v hv hu => exec_cases (hu.commands i) hv) e

end Sys2Proof.Machine
end

/-! ## Steps, completion, reset and REQUEST_TAKE (R1 to R3, R160, R161, R170) -/

section
namespace Sys2Proof.Machine

/-! ### Steps and completion -/

/-- Settles O1. -/
theorem stepTakesTheFrontCommand : Obligations.StepTakesTheFrontCommand :=
  ⟨fun _ _ _ h => step_cons h, fun _ h => step_nil h⟩

/-- `t` has the waiting commands and the straps of `s`. -/
def State.SameOutside (s t : State) : Prop := t.pending = s.pending ∧ t.straps = s.straps

theorem IsRequest.sameOutside {i : Instr} {code : Nat} {handle : Cell → State → State} (h : IsRequest i code handle) (c : Cell)
    (s : State) : s.SameOutside (handle c s) := by
  cases h <;> exact ⟨by simp, by simp⟩

/-- No command touches the waiting commands, and none but PIN_RESET the straps. -/
theorem commandCases_outside (i : Instr) (s : State) :
    CommandCases (fun t => t.pending = s.pending ∧ ((∀ x, i ≠ .pinReset x) → t.straps = s.straps)) i s := by
  have keeps {t : State} (h : s.SameOutside t) :
      t.pending = s.pending ∧ ((∀ x, i ≠ .pinReset x) → t.straps = s.straps) := ⟨h.1, fun _ => h.2⟩
  exact
    { unchanged := keeps ⟨rfl, rfl⟩
      pinReset := fun x hx => ⟨rfl, fun h => absurd hx (h x)⟩
      frame := fun f => keeps ⟨by simp, by simp⟩
      windows := keeps ⟨by simp, by simp⟩
      period := keeps ⟨by simp, by simp⟩
      missing := keeps ⟨by simp, by simp⟩
      take := keeps ⟨by simp, by simp⟩
      refused := fun c st _ => keeps ⟨rfl, rfl⟩
      request := fun _ _ _ c hrow _ => keeps (hrow.sameOutside c s)
      grant := fun _ => keeps ⟨by simp, by simp⟩
      finish := fun f _ => keeps ⟨by simp, by simp⟩ }

/-- Settles O2. -/
theorem everyCommandCompletes : Obligations.EveryCommandCompletes :=
  fun i s => exec_next (commandCases_outside i s)

/-! ### PIN_RESET -/

/-- Settles O3: the state after reset, written out. -/
theorem pinResetPutsEveryBlockIntoItsResetState : Obligations.PinResetPutsEveryBlockIntoItsResetState :=
  ⟨fun _ _ => rfl, fun _ _ => ⟨_, rfl, fun p => by simp [State.afterReset, GainRecord.reset, ProgRecord.reset]⟩⟩

/-- Settles O4: what every command keeps holds after PIN_RESET. -/
theorem resetMeetsEveryInvariant : Obligations.ResetMeetsEveryInvariant :=
  ⟨withinLimits_kept.pinReset _, slotsKept_kept.pinReset _,
    namesOpen_iff.mpr ⟨entriesOpen_kept.pinReset _, setsTrack_kept.pinReset _⟩, gainsKept_kept.pinReset _,
    lawsKept_kept.pinReset _, markKept_kept.pinReset _,
    presenceKept_iff.mpr fun p => by
      have hrecord : State.reset.progs[p] = ProgRecord.reset := by simp [State.reset, State.afterReset]
      rw [hrecord]
      exact ⟨fun _ => rfl, fun _ => rfl, fun h => (nomatch h)⟩,
    stagedKept_kept.pinReset _, cuesKept_kept.pinReset _,
    meterKept_iff.mpr ⟨metersBounded_kept.pinReset _,
      .of_noWindows fun p => by simp [State.reset, State.afterReset, MeterRecord.reset]⟩,
    .afterReset _⟩

/-! ### REQUEST_TAKE -/

theorem takeRequest_of_empty {s : State} (h : s.cells.requests = []) : takeRequest s = s := by
  simp [takeRequest, h]

theorem takeRequest_of_head {s : State} {head : Cell} {rest : List Cell} (h : s.cells.requests = head :: rest) :
    takeRequest s = if s.mayTake head then s.setCells { s.cells with requests := rest, inHand := some head } else s := by
  simp [takeRequest, h]

theorem mayTake_iff {s : State} {head : Cell} : s.mayTake head = true ↔ s.cells.inHand = none ∧
    s.cells.responses.length + s.reservations < 8 ∧
    (0x0B ≤ Cell.kind head ∧ Cell.kind head ≤ 0x0D → s.arbiter.directives.length < 4) := by
  simp [State.mayTake, Cell.isDirective, imp_iff_not_or, and_assoc]

/-- Settles O5: the test of R170, made of the head. -/
theorem requestTakeTakesTheHead : Obligations.RequestTakeTakesTheHead := by
  refine ⟨fun s head rest hhead hfree hplace hroom => ?_, fun s head rest hhead hwaits => ?_, fun s hempty => ?_⟩
  · exact congrArg _ ((takeRequest_of_head hhead).trans (if_pos (mayTake_iff.mpr ⟨hfree, hplace, hroom⟩)))
  · refine congrArg _ ((takeRequest_of_head hhead).trans (if_neg fun htake => ?_))
    obtain ⟨hfree, hplace, hroom⟩ := mayTake_iff.mp htake
    rcases hwaits with hhand | hfull | ⟨hlow, hhigh, hdirectives⟩
    · exact hhand hfree
    · omega
    · have := hroom ⟨hlow, hhigh⟩
      omega
  · exact congrArg _ (takeRequest_of_empty hempty)

end Sys2Proof.Machine
end

/-! ## Requests of the programmes and of the arbiter: OPEN, CLOSE, SEGMENT_RESET, RESTART, the directives, PROBE and PARTICIPATE -/

section
namespace Sys2Proof.Machine

/-! ### RESTART (R180, R192) -/

/-- RESTARTED is claimed on a cleared flag set: it alone is set, and it is a trigger where it is enabled above the mask. -/
theorem NoticeUnit.restarted_eq (n : NoticeUnit) : n.restarted =
    { n with flags := 0b10, state := if n.enable.getLsbD 1 = true ∧ n.mask < 6 then .pending else .none } := by
  unfold NoticeUnit.restarted
  rw [NoticeUnit.claim_of_clear (by simp [Condition.bit])]
  simp only [Condition.level, Condition.bit, NoticeState.trigger]
  simp
  rfl

/-- Settles O11. -/
theorem restartResetsAllButTheLinkSide : Obligations.RestartResetsAllButTheLinkSide := by
  intro s c h
  rw [exec_request_of_holds .restart h, restartPart, NoticeUnit.restarted_eq]
  rfl

/-! ### OPEN and SEGMENT_RESET (R35, R62, R63) -/

theorem openRequest_of_no_profile {c : Cell} (hprofile : Cell.profileOperand c 0 = none) (s : State) :
    openRequest c s = s.answer c .badValue [] := by
  simp [openRequest, hprofile]

theorem openRequest_of_no_programme {c : Cell} {q : ProfileNo} (hprofile : Cell.profileOperand c 0 = some q)
    (hprog : Cell.programme c = none) (s : State) : openRequest c s = s.answer c .badIndex [] := by
  simp [openRequest, hprofile, hprog]

theorem openRequest_of_programme {c : Cell} {q : ProfileNo} {p : Prog} (hprofile : Cell.profileOperand c 0 = some q)
    (hprog : Cell.programme c = some p) (s : State) :
    openRequest c s = if s.opened p then s.answer c .badState [] else (s.openEffects p q).answer c .done [] := by
  simp [openRequest, hprofile, hprog]

theorem resetSegment_of_no_programme {c : Cell} (hprog : Cell.programme c = none) (s : State) :
    resetSegment c s = s.answer c .badIndex [] := by
  simp [resetSegment, hprog]

theorem resetSegment_of_programme {c : Cell} {p : Prog} (hprog : Cell.programme c = some p) (s : State) :
    resetSegment c s = if s.opened p then (s.setMeter p { s.meters[p] with resetMark := true }).answer c .done []
      else s.answer c .badState [] := by
  simp [resetSegment, hprog]

/-- Settles O15, check by check. -/
theorem openAndSegmentResetRequests : Obligations.OpenAndSegmentResetRequests := by
  refine ⟨fun s c h => ?_, fun s c h => ?_⟩
  · rw [exec_request_of_holds .openProgramme h]
    refine ⟨fun hprofile => congrArg _ (openRequest_of_no_profile hprofile s), fun q hprofile =>
      ⟨fun hprog => congrArg _ (openRequest_of_no_programme hprofile hprog s), fun p hprog => ?_⟩⟩
    rw [openRequest_of_programme hprofile hprog]
    exact ⟨fun hused => by rw [if_pos ((opened_iff s p).mpr hused)],
      fun hunused => by rw [if_neg (by simp [opened_eq_false hunused])]; rfl⟩
  · rw [exec_request_of_holds .segmentReset h]
    refine ⟨fun hprog => congrArg _ (resetSegment_of_no_programme hprog s), fun p hprog => ?_⟩
    rw [resetSegment_of_programme hprog]
    exact ⟨fun hunused => by rw [if_neg (by simp [opened_eq_false hunused])],
      fun hused => by rw [if_pos ((opened_iff s p).mpr hused)]; rfl⟩

/-! ### CLOSE (R36, R37) -/

theorem closeRequest_of_no_programme {c : Cell} (hprog : Cell.programme c = none) (s : State) :
    closeRequest c s = s.answer c .badIndex [] := by
  simp [closeRequest, hprog]

theorem closeRequest_of_programme {c : Cell} {p : Prog} (hprog : Cell.programme c = some p) (s : State) :
    closeRequest c s = if s.opened p then (s.closeEffects p).answer c .done [] else s.answer c .badState [] := by
  simp [closeRequest, hprog]

theorem automaticInFlight_iff (s : State) :
    s.automaticInFlight = true ↔ ∃ f, s.engine = some f ∧ (f.op = .retune ∨ f.op = .rescale) := by
  have hautomatic (op : Operation) : op.automatic = true ↔ op = .retune ∨ op = .rescale := by
    cases op <;> simp [Operation.automatic]
  simp [State.automaticInFlight, Option.any_eq_true, hautomatic]

/-- A segment start leaves what a cancel reads. -/
theorem cancelAutomatic_startSegment (s : State) (p : Prog) : (s.startSegment p).cancelAutomatic =
    { s.cancelAutomatic with progs := (s.startSegment p).progs, meters := (s.startSegment p).meters } := by
  have htracking (q : Prog) : (s.startSegment p).idleEngine.tracking q = s.idleEngine.tracking q := by
    unfold State.tracking State.startSegment State.idleEngine
    rw [getElem_set_prog]
    split
    · next hq => rw [hq]
    · rfl
  unfold State.cancelAutomatic
  rw [State.startSegment_engine]
  cases s.engine with
  | none => rfl
  | some f =>
    cases hop : f.op <;> simp only [Operation.automatic, State.reenter, State.requestRetune, State.requestRescale, htracking,
      if_true, hop] <;> rfl

/-- The report of an emptied staged list and a segment start do not meet. -/
theorem reportEmptied_startSegment (s : State) (p q : Prog) : (s.startSegment p).reportEmptied q =
    { s.reportEmptied q with progs := (s.startSegment p).progs, meters := (s.startSegment p).meters } := by
  have hcancel := cancelAutomatic_startSegment s.draw p
  unfold State.reportEmptied
  split
  · next hreport =>
    rw [if_pos (show (newlyEligible s (s.setGain q s.gains[q].closed) && s.automaticInFlight) = true from hreport)]
    rw [State.startSegment_fresh]
    split
    · exact hcancel
    · rfl
  · next hreport =>
    rw [if_neg (show ¬(newlyEligible s (s.setGain q s.gains[q].closed) && s.automaticInFlight) = true from hreport)]
    rfl

theorem startHeldSegment_eq (s : State) (p : Prog) : s.startHeldSegment p =
    if ∃ set, s.heldStarts = some set ∧ ProgSet.mem set p = true then s.startSegment p else s := by
  unfold State.startHeldSegment
  cases s.heldStarts with
  | none => simp [show ProgSet.mem 0#16 p = false from ProgSet.mem_zero p]
  | some set => simp

theorem reportEmptied_startHeldSegment (s : State) (p : Prog) : (s.startHeldSegment p).reportEmptied p =
    { s.reportEmptied p with progs := (s.startHeldSegment p).progs, meters := (s.startHeldSegment p).meters } := by
  unfold State.startHeldSegment
  split
  · exact reportEmptied_startSegment s p p
  · have hprogs : (s.reportEmptied p).progs = s.progs := by simp
    have hmeters : (s.reportEmptied p).meters = s.meters := by simp
    rw [← hprogs, ← hmeters]

/-- The teardown of a CLOSE after its report, from the blocks that neither the report nor a segment start touches. -/
theorem closeEffects_eq (s : State) (p : Prog) : s.closeEffects p = State.claimIf { s.reportEmptied p with
    progs := (s.startHeldSegment p).progs.set p (s.startHeldSegment p).progs[p].closed
    slots := Vector.ofFn fun i : SlotNo => if s.slots[i].owner = some p then .pass else s.slots[i]
    cues := s.cues.filter fun e => e.prog != p
    owed := ProgSet.erase s.owed p
    arbiter := { (s.reportEmptied p).arbiter.leave p with
      directives := s.arbiter.directives.map fun d => if d.prog = p then { d with abort := true } else d
      probe := s.arbiter.probe.map fun e => if e.prog = p then { e with abort := true } else e }
    engine := (s.reportEmptied p).engine.map fun f => if f.prog = p then { f with discard := true } else f
    gains := s.gains.set p s.gains[p].closed
    meters := (s.startHeldSegment p).meters.set p (s.startHeldSegment p).meters[p].closed
    heldStarts := s.heldStarts.map fun set => ProgSet.erase set p }
    (s.progs[p].presence == .present && s.progs[p].reference == .present) .presence := by
  have harbiter := reportEmptied_withoutSets s p
  have hpresence : (s.startHeldSegment p).progs[p].presence = s.progs[p].presence := by
    unfold State.startHeldSegment State.startSegment; split <;> simp
  have hreference : (s.startHeldSegment p).progs[p].reference = s.progs[p].reference := by
    unfold State.startHeldSegment State.startSegment; split <;> simp
  unfold State.closeEffects
  rw [reportEmptied_startHeldSegment]
  unfold State.tearDown Arbiter.closed
  simp only [directives_of_withoutSets harbiter, probe_of_withoutSets harbiter, State.reportEmptied_frame, hpresence, hreference]

theorem decide_bothPresent (a b : Presence) :
    decide (a = .present ∧ b = .present) = (a == .present && b == .present) := by
  cases a <;> cases b <;> rfl

/-- Settles O16: the segment start held for the programme and the report of its staged list do not meet. -/
theorem closeTearsTheProgrammeDown : Obligations.CloseTearsTheProgrammeDown := by
  intro s c h
  rw [exec_request_of_holds .closeProgramme h]
  refine ⟨fun hprog => congrArg _ (closeRequest_of_no_programme hprog s), fun p u hprog hu => ?_⟩
  rw [closeRequest_of_programme hprog]
  refine ⟨fun hunused => by rw [if_neg (by simp [opened_eq_false hunused])], fun hused => ⟨s.reportEmptied p, ?_, ?_, ?_⟩⟩
  · intro hreport
    obtain ⟨hstaged, hdue, hflight⟩ := hreport
    exact (reportEmptied_cases s p).1 ⟨⟨hstaged, hdue⟩, (automaticInFlight_iff s).mpr hflight⟩
  · intro hreport
    refine (reportEmptied_cases s p).2 fun h => hreport ?_
    exact ⟨h.1.1, h.1.2, (automaticInFlight_iff s).mp h.2⟩
  · have hstart : u = s.startHeldSegment p := hu.trans (startHeldSegment_eq s p).symm
    subst hstart
    rw [if_pos ((opened_iff s p).mpr hused), closeEffects_eq, ← decide_bothPresent]
    rfl

end Sys2Proof.Machine
end

/-! ## The directives, PROBE and PARTICIPATE join the arbiter (R88, R89, R92, R171, R183) -/

section
namespace Sys2Proof.Machine

/-! ### Operands (R171, R183) -/

section
variable {c : Cell} {i : Nat}

theorem operand16_of_operands {high low : Byte} (hhigh : Cell.operand c i = some high) (hlow : Cell.operand c (i + 1) = some low) :
    Cell.operand16 c i = some (high ++ low) := by
  simp [Cell.operand16, hhigh, hlow]

theorem operand16_of_missing (h : Cell.operand c i = none ∨ Cell.operand c (i + 1) = none) : Cell.operand16 c i = none := by
  unfold Cell.operand16
  rcases h with h | h
  · rw [h]
  · rw [h]
    cases Cell.operand c i <;> rfl

theorem operand32_of_operands {high low : BitVec 16} (hhigh : Cell.operand16 c i = some high)
    (hlow : Cell.operand16 c (i + 2) = some low) : Cell.operand32 c i = some (high ++ low) := by
  simp [Cell.operand32, hhigh, hlow]

theorem operand32_of_missing (h : Cell.operand16 c i = none ∨ Cell.operand16 c (i + 2) = none) : Cell.operand32 c i = none := by
  unfold Cell.operand32
  rcases h with h | h
  · rw [h]
  · rw [h]
    cases Cell.operand16 c i <;> rfl

theorem programme_eq_some_iff {p : Prog} : Cell.programme c = some p ↔ (Cell.byte c 5).toNat = p := by
  unfold Cell.programme progOf Cell.target
  split <;> simp [Fin.ext_iff]
  omega

theorem programme_eq_none_iff : Cell.programme c = none ↔ 15 < (Cell.byte c 5).toNat := by
  unfold Cell.programme progOf Cell.target
  split
  · next h => simp; omega
  · next h => simp; omega

theorem profileOf_eq_some_iff {b : Byte} {q : ProfileNo} : profileOf b = some q ↔ b.toNat = q := by
  unfold profileOf
  split <;> simp [Fin.ext_iff]
  omega

theorem profileOf_eq_none_iff {b : Byte} : profileOf b = none ↔ 7 < b.toNat := by
  simp [profileOf]
  omega

theorem profileOperand_eq_some_iff {q : ProfileNo} :
    Cell.profileOperand c i = some q ↔ ∃ b, Cell.operand c i = some b ∧ b.toNat = q := by
  simp [Cell.profileOperand, Option.bind_eq_some_iff, profileOf_eq_some_iff]

theorem profileOperand_eq_none_iff : Cell.profileOperand c i = none ↔ ∀ b, Cell.operand c i = some b → 7 < b.toNat := by
  simp [Cell.profileOperand, Option.bind_eq_none_iff, profileOf_eq_none_iff]

theorem gainOperand_eq_some_iff {g : Int} :
    Cell.gainOperand c i = some g ↔ ∃ w, Cell.operand16 c i = some w ∧ w.toInt = g ∧ -4000 ≤ g ∧ g ≤ 2000 := by
  simp [Cell.gainOperand, Cell.operandInt, gainInRange, Option.filter_eq_some_iff, ← and_assoc, exists_and_right]

theorem gainOperand_eq_none_iff :
    Cell.gainOperand c i = none ↔ ∀ w, Cell.operand16 c i = some w → w.toInt < -4000 ∨ 2000 < w.toInt := by
  simp [Cell.gainOperand, Cell.operandInt, gainInRange, Option.filter_eq_none_iff]
  exact forall₂_congr fun w _ => by omega

theorem expectedProfile_eq_some_iff {x : Option ProfileNo} :
    Cell.expectedProfile c = some x ↔ ∃ b, Cell.operand c 0 = some b ∧
      (match x with | none => b = 0xFF | some q => b.toNat = q) := by
  unfold Cell.expectedProfile
  cases Cell.operand c 0 with
  | none => simp
  | some b =>
    dsimp only
    split
    · next hany =>
      subst hany
      cases x with
      | none => simp
      | some q =>
        have hq : (q : Nat) < 8 := q.isLt
        simp
        omega
    · next hany =>
      cases x with
      | none => simpa using hany
      | some q => simp [profileOf_eq_some_iff]

theorem expectedProfile_eq_none_iff :
    Cell.expectedProfile c = none ↔ ∀ b, Cell.operand c 0 = some b → b ≠ 0xFF ∧ 7 < b.toNat := by
  unfold Cell.expectedProfile
  cases Cell.operand c 0 with
  | none => simp
  | some b =>
    dsimp only
    split
    · next hany => simp [hany]
    · next hany =>
      have hany : ¬b = 255#8 := hany
      simp [profileOf_eq_none_iff, hany]

end

/-! ### Requests that join a source -/

theorem joinDirective_eq (s : State) (c : Cell) (op : DirectiveOp) (p : Prog) : s.joinDirective c op p =
    State.cancelAutomatic { s with
      cells := { s.cells with inHand := none }
      arbiter := { s.arbiter with directives := s.arbiter.directives ++
        [{ op := op, prog := p, reply := Cell.reply c, abort := false }] } } := rfl

section
variable {c : Cell} {p : Prog} (s : State)

theorem requestExchange_of_no_programme (hprog : Cell.programme c = none) : requestExchange c s = s.answer c .badIndex [] := by
  simp [requestExchange, hprog]

theorem requestExchange_badValue (hprog : Cell.programme c = some p)
    (h : Cell.expectedProfile c = none ∨ Cell.profileOperand c 1 = none) : requestExchange c s = s.answer c .badValue [] := by
  rcases h with h | h <;> simp [requestExchange, hprog, h]

theorem requestExchange_of_operands (hprog : Cell.programme c = some p) {expected : Option ProfileNo} {new : ProfileNo}
    (hexpected : Cell.expectedProfile c = some expected) (hnew : Cell.profileOperand c 1 = some new) :
    requestExchange c s = s.joinDirective c (.exchange expected new) p := by
  simp [requestExchange, hprog, hexpected, hnew]

theorem requestForce_of_no_programme (hprog : Cell.programme c = none) : requestForce c s = s.answer c .badIndex [] := by
  simp [requestForce, hprog]

theorem requestForce_badValue (hprog : Cell.programme c = some p)
    (h : Cell.gainOperand c 0 = none ∨ Cell.operand c 2 = none) : requestForce c s = s.answer c .badValue [] := by
  rcases h with h | h <;> simp [requestForce, hprog, h]

theorem requestForce_of_operands (hprog : Cell.programme c = some p) {gain : Int} {snap : Byte}
    (hgain : Cell.gainOperand c 0 = some gain) (hsnap : Cell.operand c 2 = some snap) :
    requestForce c s = s.joinDirective c (.force gain (snap.getLsbD 0)) p := by
  simp [requestForce, hprog, hgain, hsnap, markBit]

theorem requestRelease_of_no_programme (hprog : Cell.programme c = none) : requestRelease c s = s.answer c .badIndex [] := by
  simp [requestRelease, hprog]

theorem requestRelease_of_programme (hprog : Cell.programme c = some p) :
    requestRelease c s = s.joinDirective c .release p := by
  simp [requestRelease, hprog]

theorem requestProbe_of_no_programme (hprog : Cell.programme c = none) : requestProbe c s = s.answer c .badIndex [] := by
  simp [requestProbe, hprog]

theorem requestProbe_badValue (hprog : Cell.programme c = some p) (h : Cell.profileOperand c 0 = none) :
    requestProbe c s = s.answer c .badValue [] := by
  simp [requestProbe, hprog, h]

theorem requestProbe_of_operands (hprog : Cell.programme c = some p) {q : ProfileNo} (hq : Cell.profileOperand c 0 = some q) :
    requestProbe c s = if s.arbiter.probe ≠ none then s.answer c .busy [] else { s with
      cells := { s.cells with inHand := none }
      arbiter := { s.arbiter with probe := some { prog := p, profile := q, reply := Cell.reply c, abort := false } } } := by
  simp only [requestProbe, hprog, hq, Option.isSome_iff_ne_none]
end

/-- Settles O26: how operands are read, the three directives, and PROBE. -/
theorem directivesAndProbesJoinTheirSources : Obligations.DirectivesAndProbesJoinTheirSources := by
  refine ⟨fun c i => ?_, ⟨fun s c h => ?_, fun s c h => ?_, fun s c h => ?_⟩, fun s c h => ?_⟩
  · exact ⟨rfl, fun _ _ => operand16_of_operands, operand16_of_missing, fun _ _ => operand32_of_operands, operand32_of_missing,
      fun _ => programme_eq_some_iff, programme_eq_none_iff, fun _ => profileOperand_eq_some_iff, profileOperand_eq_none_iff,
      fun _ => gainOperand_eq_some_iff, gainOperand_eq_none_iff, fun _ => expectedProfile_eq_some_iff,
      expectedProfile_eq_none_iff⟩
  · rw [exec_request_of_holds .profileExchange h]
    exact ⟨fun hprog => congrArg _ (requestExchange_of_no_programme s hprog), fun p hprog =>
      ⟨fun hbad => congrArg _ (requestExchange_badValue s hprog hbad),
        fun _ _ hexpected hnew => congrArg _ (requestExchange_of_operands s hprog hexpected hnew)⟩⟩
  · rw [exec_request_of_holds .gainForce h]
    exact ⟨fun hprog => congrArg _ (requestForce_of_no_programme s hprog), fun p hprog =>
      ⟨fun hbad => congrArg _ (requestForce_badValue s hprog hbad),
        fun _ _ hgain hsnap => congrArg _ (requestForce_of_operands s hprog hgain hsnap)⟩⟩
  · rw [exec_request_of_holds .gainRelease h]
    exact ⟨fun hprog => congrArg _ (requestRelease_of_no_programme s hprog), fun p hprog =>
      congrArg _ (requestRelease_of_programme s hprog)⟩
  · rw [exec_request_of_holds .probe h]
    refine ⟨fun hprog => congrArg _ (requestProbe_of_no_programme s hprog), fun p hprog =>
      ⟨fun hbad => congrArg _ (requestProbe_badValue s hprog hbad), fun q hq => ?_⟩⟩
    rw [requestProbe_of_operands s hprog hq]
    exact ⟨fun hfull => by rw [if_pos hfull], fun hfree => by rw [if_neg (not_not.mpr hfree)]⟩

/-! ### PARTICIPATE (R92) -/

theorem participation_of_above {now : Bool} {b : Byte} (h : 2 < b.toNat) : participation now (some b) = none := by
  have h0 : b ≠ 0 := by rintro rfl; cases h
  have h1 : b ≠ 1 := by rintro rfl; exact absurd h (by decide)
  have h2 : b ≠ 2 := by rintro rfl; exact absurd h (by decide)
  simp only [participation, if_neg h0, if_neg h1, if_neg h2]

theorem participation_of_le {now : Bool} {b : Byte} (h : b.toNat ≤ 2) :
    participation now (some b) = some (if b = 0 then false else if b = 1 then true else now) := by
  have h2 : b ≠ 0 → b ≠ 1 → b = 2 := by
    intro h0 h1
    bv_omega
  unfold participation
  split_ifs with h0 h1 <;> simp_all

theorem setParticipation_badValue {c : Cell} {s : State} (h : participation s.arbiter.retuneOn (Cell.operand c 0) = none ∨
    participation s.arbiter.rescaleOn (Cell.operand c 1) = none) : setParticipation c s = s.answer c .badValue [] := by
  unfold setParticipation
  rcases h with h | h
  · rw [h]
  · rw [h]
    cases participation s.arbiter.retuneOn (Cell.operand c 0) <;> rfl

theorem setParticipation_of_operands {c : Cell} {s : State} {retune rescale : Bool}
    (hretune : participation s.arbiter.retuneOn (Cell.operand c 0) = some retune)
    (hrescale : participation s.arbiter.rescaleOn (Cell.operand c 1) = some rescale) : setParticipation c s =
    State.answer { s with arbiter := { s.arbiter with
      retuneOn := retune
      rescaleOn := rescale
      retune := if s.arbiter.retuneOn = true ∧ retune = false then 0 else s.arbiter.retune
      rescale := if s.arbiter.rescaleOn = true ∧ rescale = false then 0 else s.arbiter.rescale } } c .done
      [mark retune 0 ||| mark rescale 1] := by
  simp only [setParticipation, hretune, hrescale, Bool.and_eq_true, Bool.not_eq_true']
  rfl

/-- Settles O27. -/
theorem participateSetsTheFlags : Obligations.ParticipateSetsTheFlags := by
  intro s c h
  rw [exec_request_of_holds .participate h]
  refine ⟨fun a b ha hb => ⟨fun hbad => ?_, fun retune rescale hretune hrescale hr hs => ?_⟩, fun hmissing => ?_⟩
  · refine congrArg _ (setParticipation_badValue (hbad.imp ?_ ?_))
    · rw [ha]; exact participation_of_above
    · rw [hb]; exact participation_of_above
  · refine congrArg _ (setParticipation_of_operands ?_ ?_)
    · rw [ha, participation_of_le hretune, hr]
    · rw [hb, participation_of_le hrescale, hs]
  · refine congrArg _ (setParticipation_badValue (hmissing.imp ?_ ?_))
    · intro hnone; rw [hnone]; rfl
    · intro hnone; rw [hnone]; rfl

end Sys2Proof.Machine
end

/-! ## LAW_SWAP (R82) and an accepted CUE_POST (R119 to R122) -/

section
namespace Sys2Proof.Machine

/-! ### LAW_SWAP -/

theorem swapLaws_of_no_operand {c : Cell} (h : Cell.operand c 0 = none) (s : State) : swapLaws c s = s.answer c .badValue [] := by
  simp [swapLaws, h]

/-- The law tables that a set names. -/
def namedTables (set : Byte) : List TableNo := allTables.filter fun k : TableNo => set.getLsbD k

theorem mem_namedTables {set : Byte} {k : TableNo} : k ∈ namedTables set ↔ set.getLsbD k = true := by
  simp [namedTables, allTables]

/-- The search over the named tables finds the lowest. -/
theorem find_namedTables_eq_some {set : Byte} {f : TableNo → Bool} {k : TableNo} (hk : set.getLsbD k = true) (hf : f k = true)
    (hlower : ∀ j < k, set.getLsbD j = true → f j = false) : (namedTables set).find? f = some k := by
  rw [namedTables, List.find?_filter]
  refine (List.find?_ofFn_eq_some_of_injective Function.injective_id).mpr ⟨?_, fun j hj => ?_⟩
  · simp [hk, hf]
  · cases hset : set.getLsbD j with
    | false => simp [hset]
    | true => simp [hlower j hj hset]

theorem find_namedTables_eq_none {set : Byte} {f : TableNo → Bool} (h : ∀ k : TableNo, set.getLsbD k = true → f k = false) :
    (namedTables set).find? f = none :=
  List.find?_eq_none.mpr fun k hk => by simp [h k (mem_namedTables.mp hk)]

theorem above_three_iff {set : Byte} : set.extractLsb' 4 4 ≠ 0 ↔ 16 ≤ set.toNat := by
  rw [← BitVec.toNat_inj.ne]
  simp [Nat.shiftRight_eq_div_pow]
  omega

section
variable {c : Cell} {set : Byte} (hset : Cell.operand c 0 = some set) {s : State}
include hset

theorem swapLaws_of_set : swapLaws c s =
    if set = 0 then s.answer c .badValue []
    else if set.extractLsb' 4 4 ≠ 0 then s.answer c .badIndex []
    else
      match (namedTables set).find? (fun t => s.laws[t].pending), (namedTables set).find? (fun t => !s.laws[t].shadow.valid) with
      | some t, _ => s.answer c .busy [byteNat t]
      | none, some t => s.answer c .badValue [byteNat t, byteNat (s.laws[t].shadow.firstBad.getD 0)]
      | none, none =>
        (s.setLaws (Vector.ofFn fun t : TableNo =>
            if set.getLsbD t then { s.laws[t] with pending := true } else s.laws[t])).answer c .done [] := by
  rw [swapLaws, hset]
  rfl

variable (hne : set ≠ 0) (hlow : set.toNat < 16)
include hne hlow

theorem swapLaws_busy {k : TableNo} (hk : set.getLsbD k = true) (hpending : s.laws[k].pending = true)
    (hlower : ∀ j : TableNo, j < k → set.getLsbD j = true → s.laws[j].pending = false) :
    swapLaws c s = s.answer c .busy [byteNat k] := by
  rw [swapLaws_of_set hset, if_neg hne, if_neg (by rw [above_three_iff]; omega), find_namedTables_eq_some hk hpending hlower]

variable (hfree : ∀ k : TableNo, set.getLsbD k = true → s.laws[k].pending = false)
include hfree

theorem swapLaws_notValid {k : TableNo} {bad : Nat} (hk : set.getLsbD k = true) (hbad : s.laws[k].shadow.firstBad = some bad)
    (hlower : ∀ j : TableNo, j < k → set.getLsbD j = true → s.laws[j].shadow.valid = true) :
    swapLaws c s = s.answer c .badValue [byteNat k, byteNat bad] := by
  rw [swapLaws_of_set hset, if_neg hne, if_neg (by rw [above_three_iff]; omega), find_namedTables_eq_none hfree,
    find_namedTables_eq_some hk (by rw [LawBank.valid, hbad]; rfl) fun j hj hs => by rw [hlower j hj hs]; rfl]
  dsimp only
  rw [hbad]
  rfl

theorem swapLaws_accepted (hvalid : ∀ k : TableNo, set.getLsbD k = true → s.laws[k].shadow.valid = true) :
    swapLaws c s = (s.setLaws (Vector.ofFn fun t : TableNo =>
      if set.getLsbD t = true then { s.laws[t] with pending := true } else s.laws[t])).answer c .done [] := by
  rw [swapLaws_of_set hset, if_neg hne, if_neg (by rw [above_three_iff]; omega), find_namedTables_eq_none hfree,
    find_namedTables_eq_none fun k hk => by rw [hvalid k hk]; rfl]
end

/-- Settles O20, check by check. -/
theorem lawSwapMarksTheNamedTables : Obligations.LawSwapMarksTheNamedTables := by
  refine ⟨fun s c h hnone => ?_, fun s c set h hset => ?_⟩
  · rw [exec_request_of_holds .lawSwap h, swapLaws_of_no_operand hnone]
  · rw [exec_request_of_holds .lawSwap h]
    refine ⟨fun hzero => by rw [swapLaws_of_set hset, if_pos hzero], fun hhigh => ?_, fun hne hlow => ⟨?_, fun hfree => ⟨?_, ?_⟩⟩⟩
    · have hne : set ≠ 0 := by rintro rfl; exact absurd hhigh (by decide)
      rw [swapLaws_of_set hset, if_neg hne, if_pos (above_three_iff.mpr hhigh)]
    · exact fun k hk hpending hlower => congrArg _ (swapLaws_busy hset hne hlow hk hpending hlower)
    · exact fun k bad hk hbad hlower => congrArg _ (swapLaws_notValid hset hne hlow hfree hk hbad hlower)
    · exact fun hvalid => congrArg _ (swapLaws_accepted hset hne hlow hfree hvalid)

/-! ### An accepted CUE_POST -/

/-- Where a post replaces no entry, it leaves every entry in the queue. -/
theorem filter_not_names_of_none {cues : List Cue} {p : Prog} {d : LinkTime} (h : cues.any (Cue.names p d) = false) :
    cues.filter (fun e => !Cue.names p d e) = cues :=
  List.filter_eq_self.mpr fun e he => by
    have := List.any_eq_false.mp h e he
    simpa using this

/-- What the insertion of an accepted post does, in the queue that results (R119 to R122). -/
theorem insertPosted_eq (s : State) (new : Cue) (hdue : ¬s.PostMeetsDue new.prog new.block) {replaced : Bool}
    (hreplaced : replaced = s.cues.any (Cue.names new.prog new.block)) : s.insertPosted new replaced =
    offerCues s ((State.claimIf { s with
        cues := insertCue new (s.cues.filter fun e => !Cue.names new.prog new.block e)
        owed := if new.due = true ∧ new.kind = .segment then ProgSet.insert s.owed new.prog else s.owed } new.late .cueLate).claimIf
      (decide (replaced = false ∧ s.cues.length < s.notice.warnLevel ∧ s.notice.warnLevel ≤ s.cues.length + 1)) .cueWarn) := by
  have hwarn : (!replaced && decide (s.cues.length < s.notice.warnLevel) && decide (s.notice.warnLevel ≤
      (insertCue new (s.cues.filter fun e => !Cue.names new.prog new.block e)).length)) =
      decide (replaced = false ∧ s.cues.length < s.notice.warnLevel ∧ s.notice.warnLevel ≤ s.cues.length + 1) := by
    rw [(insertCue_perm new _).length_eq, List.length_cons]
    cases replaced with
    | false =>
      rw [filter_not_names_of_none hreplaced.symm]
      simp
    | true => simp
  have howed : (new.due && new.kind == .segment) = decide (new.due = true ∧ new.kind = .segment) := by
    rw [Bool.decide_and, Bool.decide_eq_true]
    rfl
  unfold State.insertPosted
  dsimp only
  rw [filter_not_replaced hdue, hwarn, howed]
  simp only [decide_eq_true_eq]

/-- Settles O24: the insertion of an accepted post, in the order of the queue. -/
theorem cuePostInsertsTheEntry : Obligations.CuePostInsertsTheEntry := by
  rintro s c p o d b passed due replaced new kept cues u h hprog hused hoperands hd hb hpassed hnear hfresh hpending hreplaced
    hroom hdue hnew hkept hcues hu
  have hposted : new = s.postedCue p o := by
    rw [hnew, hdue, hpassed, hb, hd]
    rfl
  have hfar : ¬s.PostTooFar d := fun ⟨hahead, hlead⟩ => by
    rw [hb] at hpassed
    exact Nat.not_lt.mpr (hnear (by rw [hpassed, hahead]; rfl)) hlead
  have hlate : ¬s.PostTooLate d := fun ⟨hpast, hlateness⟩ => by
    rw [hb] at hpassed hfresh
    exact Nat.not_lt.mpr (hfresh (by rw [hpassed, hpast]; rfl)) hlateness
  have hmeets : ¬s.PostMeetsDue p d := fun ⟨e, he, hp, hblock, hd⟩ => by
    rw [hpending e he hp hblock] at hd
    cases hd
  have hplace : ¬s.PostFindsNoPlace p d := fun ⟨hfull, hnone⟩ => by
    rcases hroom with hroom | hreplaces
    · omega
    · rw [hreplaced, List.any_eq_true] at hreplaces
      obtain ⟨e, he, hnames⟩ := hreplaces
      exact hnone e he (Cue.names_iff.mp hnames)
  have hprogram : new.prog = p := by rw [hnew]
  have hblock : new.block = d := by rw [hnew]
  have hmet : ¬s.PostMeetsDue new.prog new.block := by rw [hprogram, hblock]; exact hmeets
  have hqueue : insertCue new (s.cues.filter fun e => !Cue.names new.prog new.block e) = cues := by
    rw [hcues, hkept, insertCue_eq, hprogram, hblock]
    rfl
  have hinserted : s.insertPosted new replaced = offerCues s u := by
    rw [insertPosted_eq s new hmet (by rw [hprogram, hblock]; exact hreplaced), hqueue, hu, hnew]
  have hlength : (offerCues s u).cues.length = cues.length := by rw [← hinserted, insertPosted_cues s new _ hmet, hqueue]
  subst hd
  rw [exec_request_of_holds .cuePost h, postCue_of_operands hprog hused hoperands, if_neg hfar, if_neg hlate, if_neg hmeets,
    if_neg hplace, State.acceptPost, ← hposted]
  rw [hblock, show s.cues.any (Cue.names p (dueBlock o.time)) = replaced from hreplaced.symm, hinserted, hlength, hnew]
  rfl

end Sys2Proof.Machine
end

/-! ## Cells: the bytes of a made cell, its check, and the refusals of R171 (R163, R164, R171, R173) -/

section
namespace Sys2Proof.Machine

/-! ### The check (R164) -/

theorem extractLsb'_append_high {n m : Nat} (x : BitVec n) (y : BitVec m) : (x ++ y).extractLsb' m n = x := by
  ext k hk
  simp [BitVec.getLsbD_append, BitVec.getLsbD_eq_getElem hk]

theorem extractLsb'_append_low {n m : Nat} (x : BitVec n) (y : BitVec m) : (x ++ y).extractLsb' 0 m = y := by
  ext k hk
  simp [BitVec.getLsbD_append, hk]

/-- A word is the concatenation of its bytes. -/
theorem bytes16_eq_iff {w : BitVec 16} {high low : Byte} : bytes16 w = [high, low] ↔ high ++ low = w := by
  have happend : w.extractLsb' 8 8 ++ w.extractLsb' 0 8 = w := by
    rw [BitVec.extractLsb'_append_extractLsb'_eq_extractLsb' (by rfl)]
    simp
  constructor
  · intro h
    rw [← happend]
    unfold bytes16 at h
    simp only [List.cons.injEq, and_true] at h
    rw [h.1, h.2]
  · rintro rfl
    exact congrArg₂ (fun a b => [a, b]) (extractLsb'_append_high high low) (extractLsb'_append_low high low)

theorem checks_iff {c : Cell} : Cell.checks c = true ↔ c.getD 54 0 ++ c.getD 55 0 = crc (c.take 54) := by
  rw [Cell.checks, beq_iff_eq, bytes16_eq_iff]
  rfl

/-- One more bit of the message divided into the register: the step of the check, most significant bit first. -/
def crcBit (r : BitVec 16) (b : Bool) : BitVec 16 := if r.getLsbD 15 = b then r <<< 1 else (r <<< 1) ^^^ 0x1021

/-- The bits of a byte, most significant bit first. -/
def bitsOf (b : Byte) : List Bool :=
  [b.getLsbD 7, b.getLsbD 6, b.getLsbD 5, b.getLsbD 4, b.getLsbD 3, b.getLsbD 2, b.getLsbD 1, b.getLsbD 0]

theorem crcShift_xor (r y : BitVec 16) : crcShift (r ^^^ y) = crcBit r (y.getLsbD 15) ^^^ (y <<< 1) := by
  unfold crcShift crcBit
  rw [BitVec.msb_eq_getLsbD_last, BitVec.getLsbD_xor, BitVec.shiftLeft_xor_distrib]
  cases r.getLsbD (16 - 1) <;> cases y.getLsbD (16 - 1) <;> simp [BitVec.xor_assoc, BitVec.xor_comm (y <<< 1)]

/-- A byte stands in the top half of the register before its division. -/
theorem getLsbD_topByte (b : Byte) (k : Nat) : (b ++ (0 : BitVec 8) : BitVec 16).getLsbD k = (decide (8 ≤ k) && b.getLsbD (k - 8)) := by
  have h := BitVec.getLsbD_append (x := b) (y := (0 : BitVec 8)) (i := k)
  rw [h]
  split
  · simp; omega
  · simp; omega

theorem crcShift_step (r : BitVec 16) (b : Byte) (k : Nat) (hk : k ≤ 7) :
    crcShift (r ^^^ (b ++ (0 : BitVec 8)) <<< k) = crcBit r (b.getLsbD (7 - k)) ^^^ (b ++ (0 : BitVec 8)) <<< (k + 1) := by
  have hbit : ((b ++ (0 : BitVec 8) : BitVec 16) <<< k).getLsbD 15 = b.getLsbD (7 - k) := by
    have hsub : 15 - k - 8 = 7 - k := by omega
    have htop : 8 ≤ 15 - k := by omega
    have hin : ¬15 < k := by omega
    simp only [BitVec.getLsbD_shiftLeft, getLsbD_topByte, hsub, htop, hin]
    simp
  rw [crcShift_xor, hbit, BitVec.shiftLeft_add]

theorem topByte_shiftLeft (b : Byte) : (b ++ (0 : BitVec 8) : BitVec 16) <<< 8 = 0 := by
  ext k hk
  rw [← BitVec.getLsbD_eq_getElem, BitVec.getLsbD_shiftLeft, getLsbD_topByte]
  simp
  omega

/-- A byte is divided in bit by bit. -/
theorem crcByte_eq (r : BitVec 16) (b : Byte) : crcByte r b = (bitsOf b).foldl crcBit r := by
  unfold crcByte
  extract_lets top
  rw [show top = r ^^^ (b ++ (0 : BitVec 8)) from rfl, ← BitVec.shiftLeft_zero (b ++ (0 : BitVec 8)), crcShift_step r b 0 (by decide), crcShift_step _ b 1 (by decide),
    crcShift_step _ b 2 (by decide), crcShift_step _ b 3 (by decide), crcShift_step _ b 4 (by decide),
    crcShift_step _ b 5 (by decide), crcShift_step _ b 6 (by decide), crcShift_step _ b 7 (by decide), topByte_shiftLeft]
  exact BitVec.xor_zero

theorem crc_eq (bytes : List Byte) : crc bytes = (bytes.flatMap bitsOf).foldl crcBit 0xFFFF := by
  rw [List.foldl_flatMap]
  unfold crc
  congr
  funext r b
  exact crcByte_eq r b

/-! ### The bytes of a made cell -/

/-- The bytes of a made cell before its check. -/
def MadeCell.body (m : MadeCell) (origin : Byte) : List Byte :=
  [m.destination, origin, m.kind, m.status, m.tag, m.target, m.index, m.count, byteNat m.payload.length] ++
    m.payload ++ List.replicate (45 - m.payload.length) 0

section
variable (m : MadeCell) (origin : Byte) (hlen : m.payload.length ≤ 45)

theorem toCell_eq : m.toCell origin = m.body origin ++ bytes16 (crc (m.body origin)) := rfl

include hlen

theorem length_body : (m.body origin).length = 54 := by
  simp [MadeCell.body]
  omega

theorem length_toCell : (m.toCell origin).length = 56 := by
  rw [toCell_eq, List.length_append, length_body m origin hlen]
  rfl

theorem toCell_padding {k : Nat} (hlow : 9 + m.payload.length ≤ k) (hhigh : k < 54) : Cell.byte (m.toCell origin) k = 0 := by
  have hk : k < (m.body origin).length := by rw [length_body m origin hlen]; exact hhigh
  rw [Cell.byte, toCell_eq, List.getD_append _ _ _ _ hk]
  unfold MadeCell.body
  rw [List.getD_append_right _ _ _ _ (by simp; omega)]
  simp

theorem toCell_checks : Cell.checks (m.toCell origin) = true := by
  have hbody := length_body m origin hlen
  have h54 : (m.toCell origin).getD 54 0 = (crc (m.body origin)).extractLsb' 8 8 := by
    rw [toCell_eq, List.getD_append_right _ _ _ _ hbody.le, hbody]
    rfl
  have h55 : (m.toCell origin).getD 55 0 = (crc (m.body origin)).extractLsb' 0 8 := by
    rw [toCell_eq, List.getD_append_right _ _ _ _ (by omega), hbody]
    rfl
  rw [checks_iff, ← bytes16_eq_iff, h54, h55, toCell_eq, List.take_left' hbody]
  rfl

end

/-! ### Answers and refusals (R171, R173) -/

/-- Settles O6: the answer, the bytes of a cell, the check as a division, and the codes of the statuses. -/
theorem answersAreCellsThatEchoTheirRequest : Obligations.AnswersAreCellsThatEchoTheirRequest := by
  refine ⟨fun _ _ _ _ => rfl, fun m origin hlen => ⟨length_toCell m origin hlen, rfl, ?_, fun k => toCell_padding m origin hlen,
    toCell_checks m origin hlen⟩, fun divide hdivide bytes => ?_, fun _ => checks_iff, rfl⟩
  · have hdrop : (m.toCell origin).drop 9 =
        m.payload ++ (List.replicate (45 - m.payload.length) 0 ++ bytes16 (crc (m.body origin))) := by
      simp [toCell_eq, MadeCell.body]
    rw [hdrop, List.take_left]
  · have hcrc : divide = crcBit := by
      funext r b
      exact hdivide r b
    rw [hcrc]
    exact crc_eq bytes

theorem answerUnknown_of_unknown {s : State} {c : Cell} (hc : s.cells.inHand = some c)
    (hkind : ¬(0x01 ≤ Cell.kind c ∧ Cell.kind c ≤ 0x15)) : answerUnknown s = s.answer c .badKind [] := by
  simp [answerUnknown, hc, isRequestKind]
  omega

theorem onRequest_of_long {s : State} {code : Nat} {c : Cell} (hc : s.cells.inHand = some c) (hkind : Cell.kind c = code)
    (hlong : 45 < Cell.payloadLength c) (handle : Cell → State → State) :
    onRequest code handle s = s.answer c .badValue [] := by
  simp [onRequest, hc, hkind, hlong]

/-- Every row of the table has its handler. -/
theorem isRequest_of_mem_requestRows : ∀ row ∈ requestRows, ∃ handle, IsRequest row.1 row.2 handle := by
  simp only [requestRows, List.forall_mem_cons]
  exact ⟨⟨_, .ident⟩, ⟨_, .read⟩, ⟨_, .profileWrite⟩, ⟨_, .lawLoad⟩, ⟨_, .lawSwap⟩, ⟨_, .slotMap⟩, ⟨_, .openProgramme⟩,
    ⟨_, .closeProgramme⟩, ⟨_, .cuePost⟩, ⟨_, .cueWithdraw⟩, ⟨_, .profileExchange⟩, ⟨_, .gainForce⟩, ⟨_, .gainRelease⟩,
    ⟨_, .probe⟩, ⟨_, .presenceRead⟩, ⟨_, .segmentReset⟩, ⟨_, .participate⟩, ⟨_, .conditionsRead⟩, ⟨_, .conditionsClear⟩,
    ⟨_, .noticeSet⟩, ⟨_, .restart⟩, fun _ h => (nomatch h)⟩

/-- Settles O7. -/
theorem badKindsAndLengthsAreRefused : Obligations.BadKindsAndLengthsAreRefused := by
  refine ⟨fun s c hc hkind => congrArg _ (answerUnknown_of_unknown hc hkind), fun i code s c hrow hc hkind hlong => ?_⟩
  obtain ⟨handle, hrequest⟩ := isRequest_of_mem_requestRows _ hrow
  rw [exec_request hrequest, onRequest_of_long hc hkind hlong]

end Sys2Proof.Machine
end

/-! ## READ: its checks and its records (R176 to R178, section 8.12) -/

section
namespace Sys2Proof.Machine

/-! ### The checks of READ (R176) -/

theorem tableOf_eq_none_iff {n : Nat} : tableOf n = none ↔ 4 ≤ n := by
  unfold tableOf
  split
  · next h => simp; omega
  · next h => simp; omega

theorem progOf_eq_none_iff {n : Nat} : progOf n = none ↔ 16 ≤ n := by
  unfold progOf
  split
  · next h => simp; omega
  · next h => simp; omega

/-- A subject is out of range above 3 for a law table's codes and above 15 for a programme's. -/
theorem tableView_eq_none_iff (s : State) {code : Nat} (subject : Nat) (hcode : code ≤ 10) : s.tableView code subject = none ↔
    ((code = 3 ∨ code = 4) ∧ 4 ≤ subject) ∨ ((code = 6 ∨ code = 7 ∨ code = 8) ∧ 16 ≤ subject) := by
  interval_cases code <;> simp [State.tableView, tableOf_eq_none_iff, progOf_eq_none_iff]

/-- The tables without a subject. -/
theorem tableView_subject (s : State) {code : Nat} (subject : Nat) (h : code ∈ [0, 1, 2, 5, 9, 10]) :
    s.tableView code subject = s.tableView code 0 := by
  simp only [List.mem_cons, List.not_mem_nil, or_false] at h
  rcases h with rfl | rfl | rfl | rfl | rfl | rfl <;> rfl

section
variable {c : Cell} {s : State}

theorem readTable_of_no_code (h : Cell.operand c 0 = none) : readTable c s = s.answer c .badValue [] := by
  simp [readTable, h]

variable {code : Byte} (hoperand : Cell.operand c 0 = some code)
include hoperand

theorem readTable_badValue (h : 10 < code.toNat ∨ Cell.count c = 0) : readTable c s = s.answer c .badValue [] := by
  simp only [readTable, hoperand, if_pos h]

variable (hcode : code.toNat ≤ 10) (hcount : Cell.count c ≠ 0)
include hcode hcount

theorem readTable_no_table (hview : s.tableView code.toNat (Cell.target c) = none) :
    readTable c s = s.answer c .badIndex [] := by
  simp only [readTable, hoperand, hview]
  rw [if_neg (by omega)]

variable {v : TableView} (hview : s.tableView code.toNat (Cell.target c) = some v)
include hview

theorem readTable_past_end (h : v.records.length ≤ Cell.firstIndex c) : readTable c s = s.answer c .badIndex [] := by
  simp only [readTable, hoperand, hview, if_pos h]
  rw [if_neg (by omega)]

theorem readTable_accepted (h : Cell.firstIndex c < v.records.length) {n : Nat}
    (hn : n = min (Cell.count c) (min ((45 - v.lead.length) / v.recordBytes) (v.records.length - Cell.firstIndex c))) :
    readTable c s = s.draw.answerCount c (if n = Cell.count c then .done else .partialDone) (byteNat n)
      (v.lead ++ ((v.records.drop (Cell.firstIndex c)).take n).flatten) := by
  simp only [readTable, hoperand, hview, if_neg (Nat.not_le.mpr h), ← hn]
  rw [if_neg (by omega)]
end

/-- Settles O9, check by check. -/
theorem readReturnsWholeRecords : Obligations.ReadReturnsWholeRecords := by
  refine ⟨fun s code subject hcode => ⟨tableView_eq_none_iff s subject hcode, tableView_subject s subject⟩, fun s c h => ?_⟩
  rw [exec_request_of_holds .read h]
  refine ⟨fun hnone => congrArg _ (readTable_of_no_code hnone), fun code hoperand hbad =>
    congrArg _ (readTable_badValue hoperand hbad), fun code hoperand hcode hcount hview =>
    congrArg _ (readTable_no_table hoperand hcode hcount hview), ?_⟩
  rintro code v _ hoperand hcode hcount hview rfl
  exact ⟨fun hpast => congrArg _ (readTable_past_end hoperand hcode hcount hview hpast),
    fun hfirst n hn => congrArg _ (readTable_accepted hoperand hcode hcount hview hfirst hn)⟩

end Sys2Proof.Machine
end

/-! ## READ: the records of its tables, byte by byte (R177, R178, section 8.12) -/

section
namespace Sys2Proof.Machine

/-! ### The lengths of the layouts -/

@[simp] theorem length_bytes16 (w : BitVec 16) : (bytes16 w).length = 2 := rfl
@[simp] theorem length_bytes32 (w : BitVec 32) : (bytes32 w).length = 4 := rfl
@[simp] theorem length_bytesInt (i : Int) : (bytesInt i).length = 2 := rfl
@[simp] theorem length_bytesNat (n : Nat) : (bytesNat n).length = 2 := rfl
@[simp] theorem length_bytesOptInt (i : Option Int) : (bytesOptInt i).length = 2 := by cases i <;> rfl

theorem length_programmeRecord {s : State} {p : Prog} (h : (s.members p).length ≤ 8) : (s.programmeRecord p).length = 38 := by
  simp [State.programmeRecord]
  omega

theorem length_profileRecord (q : Profile) : q.record.length = 25 := by simp [Profile.record]

theorem length_lawPointRecord (p : LawPoint) : p.record.length = 4 := by simp [LawPoint.record]

theorem length_lawPrefix (s : State) (t : TableNo) (shadow : Bool) : (s.lawPrefix t shadow).length = 4 := rfl

theorem length_cueRecord (s : State) (place : Nat) (c : Cue) : (s.cueRecord place c).length = 10 := by simp [State.cueRecord]

theorem length_stagedRecord (s : State) (e : Staged) : (s.stagedRecord e).length = 8 := by simp [State.stagedRecord]

theorem length_directiveRecord (s : State) (k : Nat) : (s.directiveRecord k).length = 2 := by
  unfold State.directiveRecord
  split <;> rfl

theorem length_inFlightRecord (s : State) : s.inFlightRecord.length = 5 := by
  unfold State.inFlightRecord
  split <;> rfl

/-- The probe's two bytes of an ENGINE record. -/
def State.probeRecord (s : State) : List Byte :=
  match s.arbiter.probe with
  | some e => [0x80 ||| mark e.abort 6 ||| byteNat e.prog, byteNat e.profile]
  | none => [s.freeByte 9 &&& 0x4F, s.freeByte 10]

theorem length_probeRecord (s : State) : s.probeRecord.length = 2 := by
  unfold State.probeRecord
  split <;> rfl

theorem engineRecord_eq (s : State) : s.engineRecord =
    [byteNat s.arbiter.directives.length] ++ s.directiveRecord 0 ++ s.directiveRecord 1 ++ s.directiveRecord 2 ++
      s.directiveRecord 3 ++ s.probeRecord ++ [byteNat (s.cues.filter s.eligible).length] ++ bytes16 s.arbiter.rescale ++
      bytes16 s.arbiter.retune ++
      [mark s.arbiter.retuneOn 0 ||| mark s.arbiter.rescaleOn 1, pointerByte s.arbiter.rescalePointer,
        pointerByte s.arbiter.retunePointer] ++ s.inFlightRecord := rfl

theorem length_engineRecord (s : State) : s.engineRecord.length = 24 := by
  simp [engineRecord_eq, length_directiveRecord, length_probeRecord, length_inFlightRecord]

theorem length_statusRecord (s : State) : s.statusRecord.length = 15 := rfl

/-! ### The shape of every table (R177) -/

theorem tableOf_eq_some_iff {n : Nat} {t : TableNo} : tableOf n = some t ↔ n = t := by
  unfold tableOf
  split <;> simp [Fin.ext_iff]
  omega

theorem progOf_eq_some_iff {n : Nat} {p : Prog} : progOf n = some p ↔ n = p := by
  unfold progOf
  split <;> simp [Fin.ext_iff]
  omega

/-- What R177's table gives for a code, of the view `v` of the table for a subject. -/
structure TableView.Shaped (s : State) (code subject : Nat) (v : TableView) : Prop where
  lead : v.lead.length = (if code = 3 ∨ code = 4 ∨ code = 5 then 4 else 0)
  recordBytes : v.recordBytes = [38, 1, 26, 4, 4, 10, 8, 2, 2, 24, 15].getD code 0
  records : ∀ r ∈ v.records, r.length = v.recordBytes
  programmes : code = 0 → v.records.length = 16
  slots : code = 1 → v.records.length = 64
  profiles : code = 2 → v.records.length = 8
  laws : code = 3 ∨ code = 4 → subject < 4 ∧ v.records.length = 32
  cues : code = 5 → v.records.length = s.cues.length
  histogram : code = 7 → subject < 16 ∧ v.records.length = 300
  lists : ∀ p : Prog, subject = p → (code = 6 → v.records.length = s.gains[p].staged.length) ∧
    (code = 8 → v.records.length = s.meters[p].ring.length)
  single : code = 9 ∨ code = 10 → v.records.length = 1

theorem tableView_shaped {s : State} (hs : s.SlotsKept) {code : Nat} (hcode : code ≤ 10) {subject : Nat} {v : TableView}
    (hv : s.tableView code subject = some v) : v.Shaped s code subject := by
  have hprogramme (p : Prog) := length_programmeRecord (hs.atMostEight p)
  interval_cases code
  · cases hv
    constructor <;> simp [hprogramme, allProgs]
  · cases hv
    constructor <;> simp [allSlots]
  · cases hv
    constructor <;> simp [length_profileRecord]
  · obtain ⟨k, hk, rfl⟩ := Option.map_eq_some_iff.mp hv
    have hlow := (tableOf_eq_some_iff.mp hk).trans_lt k.isLt
    constructor <;> simp [length_lawPrefix, length_lawPointRecord, hlow]
  · obtain ⟨k, hk, rfl⟩ := Option.map_eq_some_iff.mp hv
    have hlow := (tableOf_eq_some_iff.mp hk).trans_lt k.isLt
    constructor <;> simp [length_lawPrefix, length_lawPointRecord, hlow]
  · cases hv
    have hrecord : ∀ r ∈ s.cues.mapIdx s.cueRecord, r.length = 10 := fun r hr => by
      obtain ⟨k, hk, rfl⟩ := List.mem_mapIdx.mp hr
      exact length_cueRecord s k _
    exact ⟨rfl, rfl, hrecord, by simp, by simp, by simp, by simp, by simp, by simp, by simp, by simp⟩
  · obtain ⟨p, hp, rfl⟩ := Option.map_eq_some_iff.mp hv
    rw [progOf_eq_some_iff] at hp
    subst hp
    constructor <;> simp [length_stagedRecord, Fin.val_inj]
  · obtain ⟨p, hp, rfl⟩ := Option.map_eq_some_iff.mp hv
    have hlow := (progOf_eq_some_iff.mp hp).trans_lt p.isLt
    constructor <;> simp [hlow]
  · obtain ⟨p, hp, rfl⟩ := Option.map_eq_some_iff.mp hv
    rw [progOf_eq_some_iff] at hp
    subst hp
    constructor <;> simp [Fin.val_inj]
  · cases hv
    constructor <;> simp [length_engineRecord]
  · cases hv
    constructor <;> simp [length_statusRecord]

/-! ### The records -/

/-- A list of at most 8 entries, filled up to 8. -/
theorem map_append_replicate {α β : Type} (l : List α) (f : α → β) (x : β) (h : l.length ≤ 8) :
    l.map f ++ List.replicate (8 - l.length) x = (List.range 8).map fun k => (l[k]?.map f).getD x := by
  refine List.ext_getElem (by simp; omega) fun k h1 h2 => ?_
  simp only [List.getElem_append, List.length_map, List.getElem_map, List.getElem_replicate, List.getElem_range]
  split
  · next hk => simp [List.getElem?_eq_getElem hk]
  · next hk => simp [List.getElem?_eq_none (Nat.le_of_not_lt hk)]

theorem rampCode_eq (g : GainRecord) :
    g.rampCode = if g.current = g.target then 0 else if g.current < g.target then 1 else 2 := by
  unfold GainRecord.rampCode
  split_ifs <;> first | rfl | omega

theorem slotRecord_eq (e : SlotEntry) : e.record = BitVec.ofNat 8
    (match e with
      | .pass => 0
      | .member p w => 64 + 16 * w.code.toNat + p
      | .measure p w => 128 + 16 * w.code.toNat + p
      | .mute => 192) := by
  cases e with
  | pass => rfl
  | member p w => cases w <;> revert p <;> decide
  | measure p w => cases w <;> revert p <;> decide
  | mute => rfl

theorem profileInUse_iff {s : State} {q : ProfileNo} :
    s.profileInUse q = true ↔ ∃ p : Prog, s.progs[p].state ≠ .unused ∧ s.progs[p].profile = q := by
  simp [State.profileInUse, allProgs, opened_iff]

theorem getElem?_map_finRange {α : Type} {n : Nat} (f : Fin n → α) (k : Fin n) :
    ((List.finRange n).map f)[(k : Nat)]? = some (f k) := by
  simp

/-- A PROGRAMME record, with the free block count of a programme without a window. -/
theorem programmeRecord_eq {s : State} {p : Prog} (h : (s.members p).length ≤ 8) : ∃ blocks : Byte,
    (∀ l, s.meters[p].window = some l → blocks = BitVec.ofNat 8 l.length) ∧
    s.programmeRecord p =
      [BitVec.ofNat 8 p, s.progs[p].state.code, BitVec.ofNat 8 s.progs[p].profile, s.progs[p].generation,
        mark (decide (s.progs[p].presence = .present)) 0 ||| mark (decide (s.progs[p].reference = .present)) 1 |||
          mark s.meters[p].resetMark 2 ||| mark s.meters[p].window.isSome 3 ||| mark s.gains[p].snap 4 |||
          mark s.gains[p].pressure 5,
        BitVec.ofNat 8 s.progs[p].silentRun, BitVec.ofNat 8 s.progs[p].skipped, BitVec.ofNat 8 (s.members p).length] ++
      ((List.range 8).map fun k => ((s.members p)[k]?.map fun i : SlotNo => BitVec.ofNat 8 i).getD 0xFF) ++
      [blocks, BitVec.ofNat 8 s.meters[p].ring.length] ++ bytes32 (BitVec.ofNat 32 s.meters[p].total) ++
      bytesOptInt s.meters[p].lastShort ++ bytesOptInt s.meters[p].lastIntegrated ++
      bytesInt s.gains[p].target ++ bytesInt s.gains[p].current ++
      [if s.gains[p].current = s.gains[p].target then 0 else if s.gains[p].current < s.gains[p].target then 1 else 2,
        BitVec.ofNat 8 s.gains[p].staged.length] ++ bytesNat s.gains[p].reduction ++
      bytesInt (max (-4000) (s.gains[p].current - 10 * s.gains[p].reduction)) ++
      [BitVec.ofNat 8 s.gains[p].guardLength, BitVec.ofNat 8 s.gains[p].guardCount] := by
  refine ⟨match s.meters[p].window with | some blocks => byteNat blocks.length | none => s.freeByte (64 * p + 16), ?_, ?_⟩
  · intro l hl
    rw [hl]
    rfl
  · have hmembers : (do let i ← s.members p; pure (i : Nat)) = (s.members p).map fun i : SlotNo => (i : Nat) :=
      List.flatMap_pure_eq_map _ _
    rw [← map_append_replicate _ _ _ h, ← rampCode_eq]
    unfold State.programmeRecord
    simp only [hmembers, List.map_map, List.append_assoc]
    rfl

/-- A profile's record with its mark of use. -/
theorem profileInUse_mark (s : State) (q : ProfileNo) : mark (s.profileInUse q) 0 =
    if ∃ p : Prog, s.progs[p].state ≠ .unused ∧ s.progs[p].profile = q then 1 else 0 := by
  unfold mark
  simp only [profileInUse_iff]
  rfl

theorem lawPrefix_active (s : State) (k : TableNo) : s.lawPrefix k false =
    [s.laws[k].active.code, BitVec.ofNat 8 s.laws[k].activeBank.count,
      mark s.laws[k].pending 0 ||| mark (decide (s.lawMark = some (k, s.laws[k].active))) 1, 0xFF] := by
  have hprefix : s.lawPrefix k false = [s.laws[k].active.code, byteNat s.laws[k].activeBank.count,
      mark s.laws[k].pending 0 ||| mark (s.lawMark == some (k, s.laws[k].active)) 1 ||| 0#8, 0xFF] := rfl
  rw [hprefix, beq_eq_decide, BitVec.or_zero]
  rfl

theorem lawPrefix_shadow (s : State) (k : TableNo) : s.lawPrefix k true =
    [s.laws[k].active.other.code, BitVec.ofNat 8 s.laws[k].shadow.count,
      mark s.laws[k].pending 0 ||| mark (decide (s.lawMark = some (k, s.laws[k].active.other))) 1 |||
        mark s.laws[k].shadow.valid 2, (s.laws[k].shadow.firstBad.map fun n => BitVec.ofNat 8 n).getD 0xFF] := by
  have hprefix : s.lawPrefix k true = [s.laws[k].active.other.code, byteNat s.laws[k].shadow.count,
      mark s.laws[k].pending 0 ||| mark (s.lawMark == some (k, s.laws[k].active.other)) 1 ||| mark s.laws[k].shadow.valid 2,
      match true, s.laws[k].shadow.firstBad with | true, some k => byteNat k | _, _ => 0xFF] := rfl
  rw [hprefix, beq_eq_decide]
  cases s.laws[k].shadow.firstBad <;> rfl

/-- The bank of a letter: the active one for the active letter, the shadow for the other. -/
theorem bank_of_active (t : LawTable) : (match t.active with | .a => t.bankA | .b => t.bankB) = t.activeBank := rfl

theorem bank_of_other (t : LawTable) : (match t.active.other with | .a => t.bankA | .b => t.bankB) = t.shadow := by
  unfold LawTable.shadow
  cases t.active <;> rfl

theorem eq_other_of_ne {l m : Bank} (h : l ≠ m) : l = m.other := by
  cases l <;> cases m <;> first | rfl | exact absurd rfl h

theorem getElem?_points (b : LawBank) (j : Fin 32) :
    (b.points.toList.map LawPoint.record)[(j : Nat)]? = some (bytesInt b.points[j].deviation ++ bytesInt b.points[j].gain) := by
  simp [LawPoint.record]

/-- A CUE record, with the free profile byte of an entry without a profile. -/
theorem cueRecord_eq (s : State) (place : Nat) (c : Cue) : ∃ profile : Byte,
    (∀ q, c.profile = some q → profile = BitVec.ofNat 8 q) ∧
    s.cueRecord place c = [BitVec.ofNat 8 c.prog] ++ bytes32 c.block ++
      [c.kind.code, mark c.profile.isSome 0 ||| mark c.gain.isSome 1 ||| mark c.snap 2 ||| mark c.due 3 ||| mark c.late 4 |||
        mark (s.eligible c) 5, profile] ++ bytesOptInt c.gain := by
  refine ⟨match c.profile with | some q => byteNat q | none => s.freeByte (16 * place + 7), fun q hq => ?_, rfl⟩
  rw [hq]
  rfl

/-! ### The ENGINE record (R112) -/

theorem directiveRecord_of_some {s : State} {k : Nat} {d : Directive} (h : s.arbiter.directives[k]? = some d) :
    s.directiveRecord k = [d.op.code, mark d.abort 7 ||| BitVec.ofNat 8 d.prog] := by
  rw [State.directiveRecord, h]
  rfl

theorem probeRecord_of_some {s : State} {e : ProbeEntry} (h : s.arbiter.probe = some e) :
    s.probeRecord = [0x80 ||| mark e.abort 6 ||| BitVec.ofNat 8 e.prog, BitVec.ofNat 8 e.profile] := by
  rw [State.probeRecord, h]
  rfl

theorem probeRecord_of_none {s : State} (h : s.arbiter.probe = none) :
    s.probeRecord = [s.freeByte 9 &&& 0x4F, s.freeByte 10] := by
  rw [State.probeRecord, h]

theorem inFlightRecord_of_none {s : State} (h : s.engine = none) :
    s.inFlightRecord = [0, s.freeByte 20, s.freeByte 21, s.freeByte 22 &&& 0x07, s.freeByte 23 &&& 0x03] := by
  rw [State.inFlightRecord, h]

/-- The byte of the bank in use of an in-flight record. -/
def State.bankByte (s : State) (bank : Option (TableNo × Bank)) : Byte :=
  match bank with
  | some (t, letter) => 0x80 ||| (letter.code <<< 2) ||| byteNat t
  | none => s.freeByte 22 &&& 0x07

theorem inFlightRecord_of_some {s : State} {f : InFlight} (h : s.engine = some f) : s.inFlightRecord =
    [f.op.code, BitVec.ofNat 8 f.prog, f.snap.generation, s.bankByte f.snap.bank,
      mark (f.boundaries % 2 == 1) 0 ||| mark f.discard 1] := by
  rw [State.inFlightRecord, h]
  rfl

/-- The places of an ENGINE record. -/
structure State.EngineBytes (s : State) (r : Nat → Byte) : Prop where
  record : s.engineRecord = (List.range 24).map r
  waiting : r 0 = BitVec.ofNat 8 s.arbiter.directives.length
  directive : ∀ k < 4, s.directiveRecord k = [r (1 + 2 * k), r (2 + 2 * k)]
  probe : s.probeRecord = [r 9, r 10]
  eligible : r 11 = BitVec.ofNat 8 (s.cues.filter s.eligible).length
  rescale : [r 12, r 13] = bytes16 s.arbiter.rescale
  retune : [r 14, r 15] = bytes16 s.arbiter.retune
  flags : r 16 = mark s.arbiter.retuneOn 0 ||| mark s.arbiter.rescaleOn 1
  rescalePointer : r 17 = pointerByte s.arbiter.rescalePointer
  retunePointer : r 18 = pointerByte s.arbiter.retunePointer
  inFlight : s.inFlightRecord = [r 19, r 20, r 21, r 22, r 23]

theorem engineBytes (s : State) : s.EngineBytes fun k => s.engineRecord.getD k 0 := by
  obtain ⟨d0, p0, h0⟩ := List.length_eq_two.mp (length_directiveRecord s 0)
  obtain ⟨d1, p1, h1⟩ := List.length_eq_two.mp (length_directiveRecord s 1)
  obtain ⟨d2, p2, h2⟩ := List.length_eq_two.mp (length_directiveRecord s 2)
  obtain ⟨d3, p3, h3⟩ := List.length_eq_two.mp (length_directiveRecord s 3)
  obtain ⟨e, q, hprobe⟩ := List.length_eq_two.mp (length_probeRecord s)
  obtain ⟨f0, f1, f2, f3, f4, hflight⟩ : ∃ f0 f1 f2 f3 f4, s.inFlightRecord = [f0, f1, f2, f3, f4] := by
    unfold State.inFlightRecord
    split <;> exact ⟨_, _, _, _, _, rfl⟩
  have hrecord := engineRecord_eq s
  rw [h0, h1, h2, h3, hprobe, hflight] at hrecord
  simp only [bytes16, List.cons_append, List.nil_append] at hrecord
  rw [hrecord]
  exact
    { record := hrecord
      waiting := rfl
      directive := fun k hk => by
        interval_cases k
        · exact h0
        · exact h1
        · exact h2
        · exact h3
      probe := hprobe
      eligible := rfl
      rescale := rfl
      retune := rfl
      flags := rfl
      rescalePointer := rfl
      retunePointer := rfl
      inFlight := hflight }

theorem pointerByte_eq (p : Option Prog) : pointerByte p = (p.map fun q => BitVec.ofNat 8 q).getD 0xFF := by
  cases p <;> rfl

/-- The count of boundaries of an operation in flight, which is at most 1, is its low bit. -/
theorem mark_of_le_one {n : Nat} (h : n ≤ 1) : mark (n % 2 == 1) 0 = BitVec.ofNat 8 n := by
  interval_cases n <;> rfl

/-- Bit 7 of a free byte held below it is clear. -/
theorem getLsbD_masked (b : Byte) {m : Byte} (hm : m.getLsbD 7 = false) : (b &&& m).getLsbD 7 = false := by
  rw [BitVec.getLsbD_and, hm, Bool.and_false]

theorem progOf_val (p : Prog) : progOf p = some p := dif_pos p.isLt

theorem tableView_histogram (s : State) (p : Prog) :
    s.tableView 7 p = some ⟨[], 2, s.meters[p].histogram.toList.map bytesNat⟩ := by
  simp [State.tableView, progOf_val]

theorem tableView_ring (s : State) (p : Prog) : s.tableView 8 p = some ⟨[], 2, s.meters[p].ring.map bytesInt⟩ := by
  simp [State.tableView, progOf_val]

theorem list_pair_inj {α : Type} {x y x' y' : α} (h : [x, y] = [x', y']) : x' = x ∧ y' = y := by
  simp only [List.cons.injEq, and_true] at h
  exact ⟨h.1.symm, h.2.symm⟩

/-- READ STATUS: the one record of its table, with the READ itself among the reservations (R178). -/
theorem readTable_status {s : State} {c : Cell} (hhand : s.cells.inHand = some c) (hcode : Cell.operand c 0 = some 10)
    (hhigh : Cell.operand c 1 = none) (hindex : Cell.index c = 0) (hcount : Cell.count c = 1) : readTable c s =
    s.draw.answerCount c .done 1
      (bytesNat s.cells.headerErrors ++ bytesNat s.cells.crcErrors ++ bytesNat s.cells.dropped ++ [s.rx.lock.code] ++
        bytes32 s.currentTime ++
        [BitVec.ofNat 8 s.cells.requests.length, BitVec.ofNat 8 s.cells.forward.length, BitVec.ofNat 8 s.cells.responses.length,
          BitVec.ofNat 8 (1 + s.arbiter.directives.length + (if s.arbiter.probe.isSome then 1 else 0) +
            (match s.engine with | some f => f.op.reserved | none => 0))]) := by
  have hfirst : Cell.firstIndex c = 0 := by simp [Cell.firstIndex, hhigh, hindex]
  have hreserved : s.reservations = 1 + s.arbiter.directives.length + (if s.arbiter.probe.isSome then 1 else 0) +
      (match s.engine with | some f => f.op.reserved | none => 0) := by
    rw [State.reservations, hhand]
    rfl
  rw [readTable_accepted (v := ⟨[], 15, [s.statusRecord]⟩) (n := 1) hcode (by decide) (by omega) rfl
    (by rw [hfirst]; exact Nat.one_pos) (by rw [hfirst, hcount]; simp), if_pos hcount.symm, ← hreserved, hfirst]
  simp only [List.drop_zero, List.take_succ_cons, List.take_zero, List.flatten_cons, List.flatten_nil, List.nil_append,
    List.append_nil]
  rfl

/-- Settles O10: the shapes, READ STATUS, and the records of each table. -/
theorem readTablesHoldTheirRecords : Obligations.ReadTablesHoldTheirRecords := by
  refine ⟨fun s code subject v hs hcode hv => ?_, fun s c h hcode hhigh hindex hcount => ?_, fun s v p hs hv => ?_,
    fun s v i hv => ?_, fun s v q hv => ?_, fun s v k letter bank hletter hbank hv => ?_,
    fun s v k letter bank hletter hbank hv => ?_, fun s v hv => ?_, fun s v p hv => ?_, fun s v w p hv hw => ?_,
    fun s v hv => ?_, ?_⟩
  · exact (tableView_shaped hs hcode hv).casesOn fun h1 h2 h3 h4 h5 h6 h7 h8 h9 h10 h11 =>
      ⟨h1, h2, h3, h4, h5, h6, h7, h8, h9, h10, h11⟩
  · exact (exec_request_of_holds .read h).trans (congrArg _ (readTable_status h.1 hcode hhigh hindex hcount))
  · cases hv
    obtain ⟨blocks, hblocks, hrecord⟩ := programmeRecord_eq (hs.atMostEight p)
    exact ⟨blocks, hblocks, by rw [← hrecord]; exact getElem?_map_finRange _ p⟩
  · cases hv
    have hrecord := getElem?_map_finRange (fun i : SlotNo => [s.slots[i].record]) i
    rw [slotRecord_eq] at hrecord
    exact hrecord
  · cases hv
    rw [← profileInUse_mark]
    exact getElem?_map_finRange (fun q => s.profiles[q].record ++ [mark (s.profileInUse q) 0]) q
  · rw [State.tableView, tableOf_val] at hv
    cases hv
    subst hletter
    obtain rfl := hbank.trans (bank_of_active s.laws[k])
    exact ⟨lawPrefix_active s k, getElem?_points _⟩
  · rw [State.tableView, tableOf_val] at hv
    cases hv
    rw [eq_other_of_ne hletter] at hbank ⊢
    obtain rfl := hbank.trans (bank_of_other s.laws[k])
    exact ⟨lawPrefix_shadow s k, getElem?_points _⟩
  · cases hv
    refine ⟨rfl, fun k c hc => ?_⟩
    obtain ⟨profile, hprofile, hrecord⟩ := cueRecord_eq s k c
    exact ⟨profile, hprofile, by rw [← hrecord, List.getElem?_mapIdx, hc]; rfl⟩
  · rw [State.tableView, progOf_val] at hv
    cases hv
    exact fun k e he => by rw [List.getElem?_map, he]; rfl
  · rw [tableView_histogram] at hv
    rw [tableView_ring] at hw
    cases hv
    cases hw
    exact ⟨fun k => by simp, fun k l hl => by rw [List.getElem?_map, hl]; rfl⟩
  · cases hv
    have hbytes := engineBytes s
    generalize (fun k => s.engineRecord.getD k 0) = r at hbytes
    refine ⟨r, by rw [← hbytes.record], hbytes.waiting, fun k d hk hd => ?_, fun hnone => ?_, fun e he => ?_, hbytes.eligible,
      hbytes.rescale, hbytes.retune, hbytes.flags, hbytes.rescalePointer.trans (pointerByte_eq _),
      hbytes.retunePointer.trans (pointerByte_eq _), fun hidle => ?_, fun f hf => ?_⟩
    · exact list_pair_inj ((directiveRecord_of_some hd).symm.trans (hbytes.directive k hk))
    · obtain ⟨h9, -⟩ := list_pair_inj ((probeRecord_of_none hnone).symm.trans hbytes.probe)
      rw [h9]
      exact getLsbD_masked _ (by decide)
    · exact list_pair_inj ((probeRecord_of_some he).symm.trans hbytes.probe)
    · exact (List.cons.inj ((inFlightRecord_of_none hidle).symm.trans hbytes.inFlight)).1.symm
    · have hflight := (inFlightRecord_of_some hf).symm.trans hbytes.inFlight
      simp only [List.cons.injEq, and_true] at hflight
      obtain ⟨hop, hprog, hgeneration, hbank, hmarks⟩ := hflight
      refine ⟨hop.symm, hprog.symm, hgeneration.symm, fun hnone => ?_, fun k letter hsome => ?_, fun hle => ?_⟩
      · rw [← hbank, hnone]
        exact getLsbD_masked _ (by decide)
      · rw [← hbank, hsome]
        rfl
      · rw [← hmarks, mark_of_le_one hle]
  · exact ⟨rfl, rfl, rfl, rfl, rfl, rfl, fun _ _ _ _ => ⟨rfl, rfl, rfl, rfl, rfl, fun _ _ => rfl, fun _ _ => rfl, rfl⟩⟩

end Sys2Proof.Machine
end

/-! ## Cancels, the eligible cue, and GRANT (R90, R93 to R96, R99, R103) -/

section
namespace Sys2Proof.Machine

/-! ### Cancel and eligibility (R90, R99) -/

theorem requestRescale_eq (s : State) (p : Prog) :
    s.requestRescale p = { s with arbiter := { s.arbiter with rescale :=
      if s.arbiter.rescaleOn = true ∧ s.progs[p].state = .tracking then ProgSet.insert s.arbiter.rescale p
      else s.arbiter.rescale } } := by
  simp only [State.requestRescale, Bool.and_eq_true, tracking_iff]

section
variable {s : State} {f : InFlight} (hf : s.engine = some f)
include hf

theorem cancelAutomatic_of_retune (hop : f.op = .retune) : s.cancelAutomatic = s.idleEngine.requestRetune f.prog := by
  simp [State.cancelAutomatic, hf, hop, Operation.automatic, State.reenter]

theorem cancelAutomatic_of_rescale (hop : f.op = .rescale) : s.cancelAutomatic = s.idleEngine.requestRescale f.prog := by
  simp [State.cancelAutomatic, hf, hop, Operation.automatic, State.reenter]

theorem cancelAutomatic_of_other (hretune : f.op ≠ .retune) (hrescale : f.op ≠ .rescale) : s.cancelAutomatic = s := by
  have hautomatic : f.op.automatic = false := by
    cases hop : f.op with
    | retune => exact absurd hop hretune
    | rescale => exact absurd hop hrescale
    | cue e => rfl
    | directive d r => rfl
    | probe q r => rfl
  simp [State.cancelAutomatic, hf, hautomatic]
end

theorem cancelAutomatic_of_idle {s : State} (h : s.engine = none) : s.cancelAutomatic = s := by
  simp [State.cancelAutomatic, h]

/-- An entry stands in the queue once (R115). -/
theorem State.CuesKept.not_mem_before {s : State} (hs : s.CuesKept) {before behind : List Cue} {e : Cue}
    (hcues : s.cues = before ++ e :: behind) : e ∉ before := fun hmem => by
  have hnodup := hs.nodup
  rw [hcues, List.nodup_append] at hnodup
  exact hnodup.2.2 e hmem e List.mem_cons_self rfl

/-- A DUE entry is the first of its programme where no entry before it is a DUE one of the programme. -/
theorem firstDue_iff {before behind : List Cue} {e : Cue} (hdue : e.due = true) (hmem : e ∉ before) :
    firstDue (before ++ e :: behind) e.prog = some e ↔ ∀ x ∈ before, x.prog = e.prog → x.due = false := by
  have hself : (e.due && e.prog == e.prog) = true := by simp [hdue]
  rw [firstDue, List.find?_append,
    List.find?_cons_of_pos (p := fun c : Cue => c.due && c.prog == e.prog) hself]
  cases hfind : before.find? (fun c => c.due && c.prog == e.prog) with
  | none =>
    simp only [Option.none_or, true_iff]
    intro x hx hprog
    have := List.find?_eq_none.mp hfind x hx
    simpa [hprog] using this
  | some x =>
    have hx := List.find?_some hfind
    have hxmem := List.mem_of_find?_eq_some hfind
    simp only [Bool.and_eq_true, beq_iff_eq] at hx
    constructor
    · intro heq
      cases heq
      exact absurd hxmem hmem
    · intro hnone
      have := hnone x hxmem hx.2
      rw [hx.1] at this
      cases this

theorem eligibleFor_eq_some_iff {s : State} {p : Prog} {e : Cue} :
    s.eligibleFor p = some e ↔ e.prog = p ∧ s.eligible e = true := by
  have hfirst : s.eligibleFor p = some e → e.prog = p ∧ e.due = true := fun h => by
    unfold State.eligibleFor at h
    split at h
    · have := List.find?_some h
      simp only [Bool.and_eq_true, beq_iff_eq] at this
      exact ⟨this.2, this.1⟩
    · cases h
  unfold State.eligible
  constructor
  · intro h
    obtain ⟨hprog, hdue⟩ := hfirst h
    exact ⟨hprog, by rw [hdue, hprog, h]; simp⟩
  · rintro ⟨rfl, h⟩
    simp only [Bool.and_eq_true, beq_iff_eq] at h
    exact h.2

theorem newlyEligible_iff {old new : State} :
    newlyEligible old new = true ↔ ∃ e, new.eligible e = true ∧ old.eligible e = false := by
  simp only [newlyEligible, List.any_eq_true, Bool.and_eq_true, bne_iff_ne, Option.isSome_iff_exists]
  constructor
  · rintro ⟨p, -, ⟨e, he⟩, hne⟩
    refine ⟨e, (eligibleFor_eq_some_iff.mp he).2, Bool.eq_false_iff.mpr fun hold => hne ?_⟩
    rw [he, eligibleFor_eq_some_iff.mpr ⟨(eligibleFor_eq_some_iff.mp he).1, hold⟩]
  · rintro ⟨e, hnew, hold⟩
    have he := eligibleFor_eq_some_iff.mpr ⟨rfl, hnew⟩
    refine ⟨e.prog, List.mem_finRange _, ⟨e, he⟩, fun heq => ?_⟩
    have := (eligibleFor_eq_some_iff.mp (heq ▸ he)).2
    rw [hold] at this
    cases this

/-- Settles O28. -/
theorem cancelAndEligibility : Obligations.CancelAndEligibility := by
  refine ⟨⟨fun s f hf hop => ?_, fun s f hf hop => ?_, fun s f => cancelAutomatic_of_other,
    fun s => cancelAutomatic_of_idle⟩, fun s before behind e hcues hs => ?_, fun old new => ⟨fun hsome => ?_, fun hnone => ?_⟩⟩
  · rw [cancelAutomatic_of_retune hf hop, requestRetune_eq]
    rfl
  · rw [cancelAutomatic_of_rescale hf hop, requestRescale_eq]
    rfl
  · rw [eligible_iff, hcues]
    exact and_congr_right fun hdue => and_congr_left' (firstDue_iff hdue (hs.not_mem_before hcues))
  · exact if_pos (newlyEligible_iff.mpr hsome)
  · refine if_neg fun hnew => ?_
    obtain ⟨e, he, hold⟩ := newlyEligible_iff.mp hnew
    rw [hnone e he] at hold
    cases hold

/-! ### GRANT (R93, R94) -/

section
variable {s : State}

theorem exec_grant_of_idle (h : s.engine = none) : exec .grant s = .next s.grantNext := by
  show Host.Outcome.next (if s.engine.isNone then s.grantNext else s) = _
  rw [h]
  rfl

theorem exec_grant_of_busy (h : s.engine ≠ none) : exec .grant s = .next s := by
  show Host.Outcome.next (if s.engine.isNone then s.grantNext else s) = _
  rw [if_neg (by simpa using h)]

/-- The abort-marked head of the directive queue, up to the first that is not marked. -/
theorem abortDirectives_of_split {marked rest : List Directive} (hqueue : s.arbiter.directives = marked ++ rest)
    (hmarked : ∀ m ∈ marked, m.abort = true) (hrest : ∀ d, rest.head? = some d → d.abort = false) :
    s.abortDirectives = { s with
      arbiter := { s.arbiter with directives := rest }
      cells := { s.cells with responses := s.cells.responses ++
        (marked.map fun m => m.reply.made .aborted m.reply.count []) } } := by
  have htake : rest.takeWhile (·.abort) = [] := by
    cases rest with
    | nil => rfl
    | cons d rest => rw [List.takeWhile_cons_of_neg (by rw [hrest d rfl]; exact Bool.false_ne_true)]
  have hdrop : rest.dropWhile (·.abort) = rest := by
    cases rest with
    | nil => rfl
    | cons d rest => rw [List.dropWhile_cons_of_neg (by rw [hrest d rfl]; exact Bool.false_ne_true)]
  unfold State.abortDirectives
  rw [hqueue, List.takeWhile_append_of_pos hmarked, List.dropWhile_append_of_pos hmarked, htake, hdrop, List.append_nil]

theorem abortDirectives_of_nil (h : s.arbiter.directives = []) : s.abortDirectives = s := by
  rw [abortDirectives_of_split (marked := []) (rest := []) h (fun _ hm => (nomatch hm)) fun _ hd => (nomatch hd),
    List.map_nil, List.append_nil, ← h]

/-- The arbiter's test goes by the state once the marked head of the directive queue is answered. -/
theorem grantNext_congr {t : State} (h : s.abortDirectives = t.abortDirectives) : s.grantNext = t.grantNext := by
  simp only [State.grantNext, h]

theorem grantNext_of_directive {d : Directive} {rest : List Directive} (h : s.abortDirectives.arbiter.directives = d :: rest) :
    s.grantNext = (s.abortDirectives.setArbiter { s.abortDirectives.arbiter with directives := rest }).beginOperation
      (.directive d.op d.reply) d.prog none none := by
  simp only [State.grantNext, h]

variable (h : s.arbiter.directives = [])
include h

theorem grantNext_of_cue {e : Cue} (he : s.cues.find? s.eligible = some e) : s.grantNext = s.grantCue e := by
  simp only [State.grantNext, abortDirectives_of_nil h, h, he]

theorem grantNext_of_no_cue (hnone : ∀ x ∈ s.cues, s.eligible x = false) : s.grantNext = s.grantProbeOrSets := by
  have hfind : s.cues.find? s.eligible = none := List.find?_eq_none.mpr fun x hx => by rw [hnone x hx]; exact Bool.false_ne_true
  simp only [State.grantNext, abortDirectives_of_nil h, h, hfind]
end

theorem pickMember_zero (pointer : Option Prog) : pickMember 0 pointer = none := by
  have hempty : allProgs.filter (ProgSet.mem 0) = [] :=
    List.filter_eq_nil_iff.mpr fun p _ => by rw [ProgSet.mem_zero]; exact Bool.false_ne_true
  unfold pickMember
  rw [hempty]
  cases pointer <;> rfl

theorem grantSets_of_empty {s : State} (hrescale : s.arbiter.rescale = 0) (hretune : s.arbiter.retune = 0) : s.grantSets = s := by
  simp only [State.grantSets, hrescale, hretune, pickMember_zero]

section
variable {s : State} {e : ProbeEntry} (hprobe : s.arbiter.probe = some e)
include hprobe

theorem grantProbeOrSets_of_probe (hkeep : e.abort = false) : s.grantProbeOrSets = s.grantProbe e := by
  simp [State.grantProbeOrSets, hprobe, hkeep]

theorem grantProbeOrSets_of_marked (habort : e.abort = true) : s.grantProbeOrSets =
    ((s.setArbiter { s.arbiter with probe := none }).fill e.reply .aborted []).grantSets := by
  simp [State.grantProbeOrSets, hprobe, habort]
end

/-- Settles O29, source by source. -/
theorem grantTakesDirectivesAndProbes : Obligations.GrantTakesDirectivesAndProbes := by
  refine ⟨⟨fun s => exec_grant_of_busy, fun s marked rest d hidle hqueue hmarked hd => ?_⟩,
    fun s e v bank hidle hnone hcues hprobe hv hbank => ⟨fun hkeep => ?_, fun habort hrescale hretune => ?_, fun habort => ?_⟩,
    fun s hidle hmarked => ?_, fun s hidle hnone hcues hprobe hrescale hretune => ?_⟩
  · have hhead : ∀ x, (d :: rest).head? = some x → x.abort = false := by
      rintro x ⟨⟩
      exact hd
    have haborted := abortDirectives_of_split hqueue hmarked hhead
    rw [exec_grant_of_idle hidle, grantNext_of_directive (by rw [haborted]), haborted]
    rfl
  · rw [exec_grant_of_idle hidle, grantNext_of_no_cue hnone hcues, grantProbeOrSets_of_probe hprobe hkeep, State.grantProbe, hbank]
    subst hv
    rfl
  · rw [exec_grant_of_idle hidle, grantNext_of_no_cue hnone hcues, grantProbeOrSets_of_marked hprobe habort]
    exact congrArg _ (grantSets_of_empty hrescale hretune)
  · rw [exec_grant_of_idle hidle, grantNext_of_no_cue hnone hcues, grantProbeOrSets_of_marked hprobe habort]
    refine Eq.symm ((exec_grant_of_idle (by exact hidle)).trans (congrArg _ ?_))
    exact grantNext_of_no_cue hnone hcues
  · have haborted := abortDirectives_of_split (List.append_nil s.arbiter.directives).symm hmarked fun _ hd => (nomatch hd)
    refine (exec_grant_of_idle hidle).trans (Eq.symm ((exec_grant_of_idle (by exact hidle)).trans (congrArg _ (grantNext_congr ?_))))
    exact (abortDirectives_of_nil rfl).trans haborted.symm
  · rw [exec_grant_of_idle hidle, grantNext_of_no_cue hnone hcues, State.grantProbeOrSets, hprobe]
    exact congrArg _ (grantSets_of_empty hrescale hretune)

end Sys2Proof.Machine
end

/-! ## GRANT of a cue and of the next programme in turn (R93 to R96, R103) -/

section
namespace Sys2Proof.Machine

/-! ### The first eligible cue -/

/-- The profile that a cue computes with is the one a SWITCH or a SEGMENT carries (R96). -/
theorem carried_eq (e : Cue) : e.carried = if e.kind = .segment ∨ e.kind = .switch then e.profile else none := by
  unfold Cue.carried
  cases e.kind <;> rfl

/-- Settles O30. -/
theorem grantTakesTheFirstEligibleCue : Obligations.GrantTakesTheFirstEligibleCue := by
  intro s before behind e carried v bank hidle hnone hs hcues hbefore he hcarried hv hbank
  have hfind : s.cues.find? s.eligible = some e := by
    rw [hcues, List.find?_append, List.find?_eq_none.mpr fun x hx => by rw [hbefore x hx]; exact Bool.false_ne_true,
      List.find?_cons_of_pos he, Option.none_or]
  have herase : s.cues.erase e = before ++ behind := by
    rw [hcues, List.erase_append_right _ (hs.not_mem_before hcues), List.erase_cons_head]
  rw [exec_grant_of_idle hidle, grantNext_of_cue hnone hfind, State.grantCue, herase, hbank, hv, hcarried, ← carried_eq]
  have hmark : (e.carried.map fun k => s.profiles[k].lawTable).map (fun t => (t, s.laws[t].active)) =
      e.carried.map fun q => (s.profiles[q].lawTable, s.laws[s.profiles[q].lawTable].active) := Option.map_map _ _ _
  rw [← hmark]
  rfl

/-! ### The next programme in turn (R94) -/

/-- The lowest member of a set that passes a test. -/
theorem find_members_eq_some {set : ProgSet} {test : Prog → Bool} {p : Prog} (hp : ProgSet.mem set p = true) (htest : test p = true)
    (hlower : ∀ r < p, ProgSet.mem set r = true → test r = false) : (allProgs.filter (ProgSet.mem set)).find? test = some p := by
  rw [List.find?_filter]
  refine (List.find?_ofFn_eq_some_of_injective Function.injective_id).mpr ⟨?_, fun r hr => ?_⟩
  · simp [hp, htest]
  · cases hmem : ProgSet.mem set r with
    | false => simp [hmem]
    | true => simp [hlower r hr hmem]

theorem find_members_eq_none {set : ProgSet} {test : Prog → Bool} (h : ∀ r, ProgSet.mem set r = true → test r = false) :
    (allProgs.filter (ProgSet.mem set)).find? test = none :=
  List.find?_eq_none.mpr fun r hr => by rw [h r (List.mem_filter.mp hr).2]; exact Bool.false_ne_true

theorem head_members_eq_some {set : ProgSet} {p : Prog} (hp : ProgSet.mem set p = true)
    (hlowest : ∀ r, ProgSet.mem set r = true → p ≤ r) : (allProgs.filter (ProgSet.mem set)).head? = some p := by
  rw [List.head?_filter]
  refine (List.find?_ofFn_eq_some_of_injective Function.injective_id).mpr ⟨hp, fun r hr hmem => ?_⟩
  exact absurd (hlowest r hmem) (not_le.mpr hr)

/-- The member that a set grants is the next in turn. -/
theorem pickMember_of_nextInTurn {set : ProgSet} {pointer : Option Prog} {p : Prog} (h : NextInTurn set pointer p) :
    pickMember set pointer = some p := by
  obtain ⟨hmem, ⟨q, rfl, hq, hnext⟩ | ⟨hpast, hlowest⟩⟩ := h
  · have hfind := find_members_eq_some (test := fun r => decide (q < r)) hmem (decide_eq_true hq) fun r hr hr' =>
      decide_eq_false fun hqr => absurd (hnext r hr' hqr) (not_le.mpr hr)
    simp only [pickMember, hfind, Option.some_or]
  · have hhead := head_members_eq_some hmem hlowest
    unfold pickMember
    cases pointer with
    | none => exact hhead
    | some q =>
      have hfind := find_members_eq_none (set := set) (test := fun r => decide (q < r)) fun r hr =>
        decide_eq_false (not_lt.mpr (hpast q r rfl hr))
      simp only [hfind, hhead, Option.none_or]

/-- Settles O31. -/
theorem grantTakesTheNextInTurn : Obligations.GrantTakesTheNextInTurn := by
  intro s p v bank snap hidle hnone hcues hprobe hv hbank hsnap
  have hgrant : exec .grant s = .next s.grantSets := by
    rw [exec_grant_of_idle hidle, grantNext_of_no_cue hnone hcues, State.grantProbeOrSets, hprobe]
  subst hv hbank hsnap
  refine ⟨fun hnext => ?_, fun hempty hnext => ?_⟩
  · rw [hgrant, State.grantSets, pickMember_of_nextInTurn hnext]
    rfl
  · rw [hgrant, State.grantSets, hempty, pickMember_zero, pickMember_of_nextInTurn hnext]
    rfl

end Sys2Proof.Machine
end

/-! ## Completions: the discarded operations, the parts of a cue, and PROBE (R98, R101, R104, R109, R129 to R132) -/

section
namespace Sys2Proof.Machine

/-! ### Operations that make no effect (R98, R101) -/

section
variable {s : State} {f : InFlight}

theorem completeAutomatic_of_newGeneration (h : s.progs[f.prog].generation ≠ f.snap.generation) :
    completeAutomatic f s = s.reenter f.op f.prog := if_pos h

theorem completeAutomatic_of_staged (hgeneration : s.progs[f.prog].generation = f.snap.generation) (hstaged : f.snap.staged ≠ 0) :
    completeAutomatic f s = s := by
  rw [completeAutomatic, if_neg (not_not.mpr hgeneration), if_pos hstaged]

/-- The completion of a RETUNE in flight. -/
theorem exec_retuneCompletion (h : s.inFlight f) (hop : f.op = .retune) :
    exec .retuneCompletion s = .next (completeAutomatic f s).idleEngine := by
  have hrow := exec_automaticCompletion_of_inFlight h (.inl hop)
  rwa [if_pos hop] at hrow

/-- The completion of a RESCALE in flight. -/
theorem exec_rescaleCompletion (h : s.inFlight f) (hop : f.op = .rescale) :
    exec .rescaleCompletion s = .next (completeAutomatic f s).idleEngine := by
  have hrow := exec_automaticCompletion_of_inFlight h (.inr hop)
  rwa [if_neg (by rw [hop]; decide)] at hrow

/-- The completion of a cue in flight. -/
theorem exec_cueCompletion (h : s.inFlight f) {e : Cue} (hop : f.op = .cue e) :
    exec .cueCompletion s = .next (completeCue e f s).idleEngine := by
  have hrow := exec_completion_of_inFlight h
  rw [operationEffects, hop] at hrow
  exact hrow

/-- The completion of a PROBE in flight. -/
theorem exec_probeCompletion (h : s.inFlight f) {q : ProfileNo} {r : Reply} (hop : f.op = .probe q r) :
    exec .probeCompletion s = .next (completeProbe q r f s).idleEngine := by
  have hrow := exec_completion_of_inFlight h
  rw [operationEffects, hop] at hrow
  exact hrow
end

/-- Settles O32: the seven discards, and the two ways a RETUNE or RESCALE finds its snapshot out of date. -/
theorem discardedOperationsMakeNoEffect : Obligations.DiscardedOperationsMakeNoEffect := by
  refine ⟨fun s f hf hd => ?_, fun s f h => ⟨fun hnew => ⟨fun hop => ?_, fun hop => ?_⟩,
    fun hgeneration hstaged => ⟨fun hop => ?_, fun hop => ?_⟩⟩⟩
  · have hrow := exec_completion_of_discarded hf hd
    refine ⟨fun hop => ?_, fun hop => ?_, fun e hop => ?_, fun expected new r hop => ?_, fun gain snap r hop => ?_,
      fun r hop => ?_, fun q r hop => ?_⟩
    all_goals
      rw [hop] at hrow
      exact hrow
  · rw [exec_retuneCompletion h hop, completeAutomatic_of_newGeneration hnew, hop, State.reenter, requestRetune_eq]
    rfl
  · rw [exec_rescaleCompletion h hop, completeAutomatic_of_newGeneration hnew, hop, State.reenter, requestRescale_eq]
    rfl
  · rw [exec_retuneCompletion h hop, completeAutomatic_of_staged hgeneration hstaged]
    rfl
  · rw [exec_rescaleCompletion h hop, completeAutomatic_of_staged hgeneration hstaged]
    rfl

/-! ### The cues without a profile part (R129, R132) -/

section
variable {s : State} {e : Cue} (f : InFlight)

theorem completeCue_hold (hkind : e.kind = .hold) : completeCue e f s = completeHold e s := by rw [completeCue, hkind]
theorem completeCue_release (hkind : e.kind = .release) : completeCue e f s = completeRelease e s := by rw [completeCue, hkind]
theorem completeCue_preset (hkind : e.kind = .preset) : completeCue e f s = completePreset e s := by rw [completeCue, hkind]
theorem completeCue_segment (hkind : e.kind = .segment) : completeCue e f s = completeSegment e f.snap s := by
  rw [completeCue, hkind]
theorem completeCue_switch (hkind : e.kind = .switch) : completeCue e f s = completeSwitch e f.snap s := by rw [completeCue, hkind]

theorem completeHold_of_open (h : s.progs[e.prog].state = .dormant ∨ s.progs[e.prog].state = .tracking ∨
    s.progs[e.prog].state = .held) : completeHold e s = (s.moveTo e.prog .held).stage e none false := by
  rcases h with h | h | h <;> rw [completeHold, h]

theorem completeHold_of_overridden (h : s.progs[e.prog].state = .overridden) : completeHold e s = s.skipCue e.prog := by
  rw [completeHold, h]

theorem completeRelease_of_held (h : s.progs[e.prog].state = .held) :
    completeRelease e s = (s.moveTo e.prog s.progs[e.prog].presence.released).requestRetune e.prog := by
  rw [completeRelease, h]

theorem completeRelease_of_other (h : s.progs[e.prog].state = .dormant ∨ s.progs[e.prog].state = .tracking ∨
    s.progs[e.prog].state = .overridden) : completeRelease e s = s.skipCue e.prog := by
  rcases h with h | h | h <;> rw [completeRelease, h]

/-- A request for a programme that is not TRACKING is dropped (R91). -/
theorem requestRetune_of_not_tracking {s : State} {p : Prog} (h : s.tracking p = false) : s.requestRetune p = s := by
  simp [State.requestRetune, h]

theorem completePreset_of_open (h : s.progs[e.prog].state = .dormant ∨ s.progs[e.prog].state = .tracking ∨
    s.progs[e.prog].state = .held) : completePreset e s = s.stage e e.gain e.snap := by
  rcases h with h | h | h <;> rw [completePreset, h]

theorem completePreset_of_overridden (h : s.progs[e.prog].state = .overridden) : completePreset e s = s.skipCue e.prog := by
  rw [completePreset, h]

/-! ### The cues with a profile part (R104, R105, R129) -/

theorem marked_iff (gain : Option Int) (snap : Bool) : (gain.isSome || snap) = true ↔ gain ≠ none ∨ snap = true := by
  rw [Bool.or_eq_true, Option.isSome_iff_ne_none]

theorem completeSegment_of_untracked (snap : Snapshot)
    (h : s.progs[e.prog].state = .dormant ∨ s.progs[e.prog].state = .held) : completeSegment e snap s =
    if e.gain ≠ none ∨ e.snap = true then (s.profilePart e).stage e e.gain e.snap else s.profilePart e := by
  rcases h with h | h <;> simp only [completeSegment, h, marked_iff]

theorem completeSegment_of_tracking (snap : Snapshot) (h : s.progs[e.prog].state = .tracking) : completeSegment e snap s =
    if e.gain ≠ none ∨ s.computedGain e snap ≠ none ∨ e.snap = true then
      (s.profilePart e).stage e (e.gain.or (s.computedGain e snap)) e.snap
    else s.profilePart e := by
  have hor : e.gain.or (s.computedGain e snap) ≠ none ↔ e.gain ≠ none ∨ s.computedGain e snap ≠ none := by
    cases e.gain <;> simp
  simp only [completeSegment, h, marked_iff, hor, or_assoc]

theorem completeSegment_of_overridden (snap : Snapshot) (h : s.progs[e.prog].state = .overridden) : completeSegment e snap s =
    if e.gain ≠ none ∨ e.snap = true then (s.profilePart e).skipCue e.prog else s.profilePart e := by
  simp only [completeSegment, h, marked_iff]

theorem completeSwitch_of_untracked (snap : Snapshot)
    (h : s.progs[e.prog].state = .dormant ∨ s.progs[e.prog].state = .held) : completeSwitch e snap s = s.profilePart e := by
  rcases h with h | h <;> rw [completeSwitch, h]

theorem completeSwitch_of_tracking (snap : Snapshot) (h : s.progs[e.prog].state = .tracking) : completeSwitch e snap s =
    (s.computedGain e snap).elim (s.profilePart e) fun g => (s.profilePart e).stage e (some g) false := by
  rw [completeSwitch, h]
  dsimp only
  cases s.computedGain e snap <;> rfl

theorem completeSwitch_of_overridden (snap : Snapshot) (h : s.progs[e.prog].state = .overridden) :
    completeSwitch e snap s = (s.profilePart e).skipCue e.prog := by
  rw [completeSwitch, h]

theorem carried_of_profiled (h : e.kind = .segment ∨ e.kind = .switch) : e.carried = e.profile := by rw [carried_eq, if_pos h]

/-- The profile part is made whether the engine is idle already or not. -/
theorem idleEngine_profilePart (h : e.kind = .segment ∨ e.kind = .switch) : (s.profilePart e).idleEngine =
    match e.profile with | some q => s.idleEngine.setProfile e.prog q | none => s.idleEngine := by
  rw [State.profilePart, carried_of_profiled h]
  cases e.profile <;> rfl

theorem computedGain_eq (h : e.kind = .segment ∨ e.kind = .switch) (snap : Snapshot) : s.computedGain e snap =
    match e.profile with | some q => s.proposedGain snap s.profiles[q] | none => none := by
  cases hq : e.profile <;> simp only [State.computedGain, carried_of_profiled h, hq]
end

/-- Settles O34, kind by kind and state by state. -/
theorem cuesActByKindAndState : Obligations.CuesActByKindAndState := by
  refine ⟨fun s f e p idle h hop hprog hidle => ?_, fun s f e p moved computed h hop hprog hmoved hcomputed => ?_⟩
  · subst hprog hidle
    rw [exec_cueCompletion h hop]
    refine ⟨fun hkind => ⟨fun hst => ?_, fun hst => ?_⟩, fun hkind => ⟨fun hst hpresence => ?_, fun hst hpresence => ?_, fun hst => ?_⟩,
      fun hkind => ⟨fun hst => ?_, fun hst => ?_⟩⟩
    · rw [completeCue_hold f hkind, completeHold_of_open hst]; rfl
    · rw [completeCue_hold f hkind, completeHold_of_overridden hst]; rfl
    · rw [completeCue_release f hkind, completeRelease_of_held hst, hpresence]; rfl
    · rw [completeCue_release f hkind, completeRelease_of_held hst, hpresence,
        requestRetune_of_not_tracking (by simp [State.tracking, Presence.released, ProgRecord.toState_eq])]
      rfl
    · rw [completeCue_release f hkind, completeRelease_of_other hst]; rfl
    · rw [completeCue_preset f hkind, completePreset_of_open hst]; rfl
    · rw [completeCue_preset f hkind, completePreset_of_overridden hst]; rfl
  · subst hprog
    rw [exec_cueCompletion h hop]
    refine ⟨fun hkind => ?_, fun hkind => ?_⟩
    · have hpart : (s.profilePart e).idleEngine = moved := (idleEngine_profilePart (.inl hkind)).trans hmoved.symm
      have hgain : s.computedGain e f.snap = computed := (computedGain_eq (.inl hkind) _).trans hcomputed.symm
      rw [completeCue_segment f hkind]
      subst hpart hgain
      refine ⟨fun hst => ?_, fun hst => ?_, fun hst => ?_⟩
      · rw [completeSegment_of_untracked _ hst]; split <;> rfl
      · rw [completeSegment_of_tracking _ hst]; split <;> rfl
      · rw [completeSegment_of_overridden _ hst]; split <;> rfl
    · have hpart : (s.profilePart e).idleEngine = moved := (idleEngine_profilePart (.inr hkind)).trans hmoved.symm
      have hgain : computed = s.computedGain e f.snap := hcomputed.trans (computedGain_eq (.inr hkind) _).symm
      rw [completeCue_switch f hkind]
      subst hpart
      refine ⟨fun hst => ?_, fun hst => ?_, fun hst => ?_⟩
      · rw [completeSwitch_of_untracked _ hst]
      · rw [completeSwitch_of_tracking _ hst, ← hgain]
        cases computed <;> rfl
      · rw [completeSwitch_of_overridden _ hst]; rfl

end Sys2Proof.Machine
end

/-! ## The parts of a cue (R104, R129 to R132, R141) and PROBE's completion (R109) -/

section
namespace Sys2Proof.Machine

/-! ### The parts of a cue on a programme -/

/-- A gain is clamped to the nearest value of the range. -/
theorem clampGain_nearest {low high g : Int} {x : Int} (hlow : low ≤ x) (hhigh : x ≤ high) : |clampGain low high g - g| ≤ |x - g| := by
  unfold clampGain
  simp only [Int.abs_eq_natAbs]
  split_ifs <;> omega

theorem insertStaged_eq (new : Staged) (l : List Staged) : insertStaged new l =
    (l.takeWhile fun x => atOrBefore x.boundary new.boundary) ++
      new :: l.dropWhile fun x => atOrBefore x.boundary new.boundary := by
  induction l with
  | nil => rfl
  | cons e rest ih =>
    unfold insertStaged
    split
    · next h => simp [h, ih]
    · next h => simp [h]

theorem moveTo_eq (s : State) (p : Prog) (st : ProgState) : s.moveTo p st = { s with
    progs := s.progs.set p { s.progs[p] with
      state := st
      generation := if s.progs[p].state = st then s.progs[p].generation else s.progs[p].generation + 1 }
    arbiter := if s.progs[p].state = .tracking ∧ st ≠ .tracking then s.arbiter.leave p else s.arbiter } := by
  rw [State.moveTo, ProgRecord.toState_eq]

/-- Settles O35, part by part. -/
theorem cuePartsActOnTheProgramme : Obligations.CuePartsActOnTheProgramme := by
  refine ⟨fun low high g h => ⟨clampGain_ge h, clampGain_le h, fun x => clampGain_nearest⟩, fun s p hused =>
    ⟨setProfile_of_opened hused, moveTo_eq s p, requestRetune_eq s p, ?_, rfl⟩⟩
  rintro e gain snap rfl
  rw [stage_of_opened hused, insertStaged_eq]
  rfl

/-! ### PROBE (R109) -/

section
variable {s : State} {f : InFlight} {q : ProfileNo} {r : Reply}

theorem completeProbe_of_unused (h : s.progs[f.prog].state = .unused) : completeProbe q r f s = s.fill r .badState [] := by
  simp [completeProbe, opened_eq_false h]

theorem completeProbe_of_opened (h : s.progs[f.prog].state ≠ .unused) {k : Computation} (hk : f.snap.computation = some k) :
    completeProbe q r f s = s.fill r .done (probePayload f.snap k (s.propose f.snap s.profiles[q])) := by
  simp only [completeProbe, (opened_iff s f.prog).mpr h, Bool.not_true, Bool.false_eq_true, if_false, hk]
end

section
variable {s : State} {snap : Snapshot} {stored : Profile} {k : Computation} {table : TableNo} {letter : Bank}
  (hk : snap.computation = some k) (hbank : snap.bank = some (table, letter))
include hk hbank

theorem propose_of_no_value (hv : k.measured = none) : s.propose snap stored = none := by
  simp [State.propose, hk, hbank, hv]

theorem propose_of_value {v : Int} (hv : k.measured = some v) {law clamped : Int}
    (hlaw : law = (s.laws[table].bank letter).gainAt (v - k.profile.target))
    (hclamped : clamped = clampGain stored.gainMin stored.gainMax law) : s.propose snap stored = some
      { deviation := v - k.profile.target, lawGain := law, clamped := clamped
        changes := decide (k.profile.tolerance < (law - snap.target).natAbs) &&
          !(k.pressure && decide (snap.target < clamped)) } := by
  subst hlaw hclamped
  simp only [State.propose, hk, hbank, hv, Option.map_some]
end

theorem probePayload_of_none (snap : Snapshot) (k : Computation) : probePayload snap k none =
    bytesOptInt k.short ++ bytesOptInt k.integrated ++ bytesOptInt k.blend ++
      [snap.state.code, BitVec.ofNat 8 snap.profile] ++ bytesInt snap.target ++ [mark k.pressure 0 ||| 0b10] ++
      [0x80, 0, 0x80, 0, 0x80, 0] := by
  have hmarks : mark k.pressure 0 ||| mark true 1 ||| mark false 2 = mark k.pressure 0 ||| 0b10 := by
    cases k.pressure <;> rfl
  rw [← hmarks]
  simp only [probePayload, List.append_assoc]
  rfl

theorem probePayload_of_some (snap : Snapshot) (k : Computation) (x : Proposal) : probePayload snap k (some x) =
    bytesOptInt k.short ++ bytesOptInt k.integrated ++ bytesOptInt k.blend ++
      [snap.state.code, BitVec.ofNat 8 snap.profile] ++ bytesInt snap.target ++
      [mark k.pressure 0 ||| mark x.changes 2] ++ bytesInt x.deviation ++ bytesInt x.lawGain ++ bytesInt x.clamped := by
  have hmarks : mark k.pressure 0 ||| mark false 1 ||| mark x.changes 2 = mark k.pressure 0 ||| mark x.changes 2 := by
    cases k.pressure <;> cases x.changes <;> rfl
  rw [← hmarks]
  rfl

/-- Settles O38: the effects are the response alone. -/
theorem probeChangesNoState : Obligations.ProbeChangesNoState := by
  rintro s f p q r idle k table letter value h hop rfl rfl hk hbank hvalue
  replace hvalue : value = k.measured := hvalue
  rw [exec_probeCompletion h hop]
  refine ⟨fun hunused => ?_, fun hused hnone => ?_, fun v law clamped hused hsome hlaw hclamped => ?_⟩
  · rw [completeProbe_of_unused hunused]
    rfl
  · rw [completeProbe_of_opened hused hk, propose_of_no_value hk hbank (hvalue.symm.trans hnone), probePayload_of_none]
    rfl
  · rw [completeProbe_of_opened hused hk, propose_of_value hk hbank (hvalue.symm.trans hsome) hlaw hclamped,
      probePayload_of_some]
    rfl

end Sys2Proof.Machine
end

/-! ## The link: SEARCH and CONFIRM, missing frames, and the reference clock (R3 to R5, R8, R9, R18) -/

section
namespace Sys2Proof.Machine

/-! ### SEARCH and CONFIRM (R3 to R5) -/

/-- In SEARCH no header error is due. -/
theorem takeOwedTimeout_search {s : State} (h : s.rx.lock = .search) : s.takeOwedTimeout = s := by
  unfold State.takeOwedTimeout State.takeTimeout
  rw [h]
  exact ite_self s

theorem frameArrives_search {s : State} (h : s.rx.lock = .search) (f : Frame) :
    s.frameArrives f = (s.setRx s.rx.heard).searchFrame f := by
  unfold State.frameArrives
  simp only [takeOwedTimeout_search h, State.setRx_rx, Receiver.heard_lock, h]

theorem frameArrives_confirm {s : State} (h : s.rx.lock = .confirm) (htime : s.framesInTime) (f : Frame) :
    s.frameArrives f = (s.setRx s.rx.heard).confirmFrame f := by
  unfold State.frameArrives
  simp only [takeOwedTimeout_inTime htime, State.setRx_rx, Receiver.heard_lock, h]

theorem hasSync_iff {w : ServiceWord} : hasSync w = true ↔ w.extractLsb' 16 16 = 0x6B2D := beq_iff_eq

theorem headerValid_iff {w0 w1 : ServiceWord} :
    headerValid w0 w1 = true ↔ w0.extractLsb' 16 16 = 0x6B2D ∧ w1.toNat % 16 = 0 := by
  rw [headerValid, Bool.and_eq_true, hasSync_iff, onSuperframe_iff]

theorem examineFrame_eq (s : State) (w : ServiceWord) : s.examineFrame w =
    s.setRx { s.rx with possible := if w.extractLsb' 16 16 = 0x6B2D then some w else none } := by
  simp only [State.examineFrame, hasSync_iff]

theorem searchFrame_of_no_header {s : State} {f : Frame} (h : ∀ w0, s.rx.possible = some w0 → f.service.toNat % 16 ≠ 0) :
    s.searchFrame f = s.examineFrame f.service := by
  unfold State.searchFrame
  split
  · next w0 hw => rw [if_neg (mt onSuperframe_iff.mp (h w0 hw))]
  · rfl

theorem searchFrame_of_header {s : State} {f : Frame} {w0 : ServiceWord} (hw : s.rx.possible = some w0)
    (h : f.service.toNat % 16 = 0) : s.searchFrame f = (s.enterConfirm w0 f.service).carryFrame f.samples := by
  unfold State.searchFrame
  rw [hw]
  exact if_pos (onSuperframe_iff.mpr h)

theorem confirmFrame_of_full {s : State} (h : s.rx.words.length = 16) (f : Frame) :
    s.confirmFrame f = (s.setRx (s.rx.setWords [f.service])).carryFrame f.samples := if_pos h

theorem confirmFrame_of_word {s : State} (h1 : s.rx.words.length ≠ 1) (h16 : s.rx.words.length ≠ 16) (f : Frame) :
    s.confirmFrame f = (s.setRx (s.rx.setWords (s.rx.words ++ [f.service]))).carryFrame f.samples := by
  unfold State.confirmFrame
  rw [if_neg h16]
  split
  · next w0 hw => exact absurd (by rw [hw]; rfl) h1
  · rfl

theorem confirmFrame_of_one {s : State} {w0 : ServiceWord} (hw : s.rx.words = [w0]) (f : Frame) :
    s.confirmFrame f = s.secondHeader w0 f := by
  unfold State.confirmFrame
  rw [if_neg (by rw [hw]; exact (by decide : (1 : Nat) ≠ 16)), hw]

theorem secondHeader_confirmed {s : State} {w0 : ServiceWord} {f : Frame} (hvalid : headerValid w0 f.service = true)
    (htime : f.service = s.rx.time + 16) :
    s.secondHeader w0 f = (s.setRx (s.rx.enterSettling w0 f.service)).carryFrame f.samples := by
  rw [State.secondHeader, if_pos hvalid, if_pos htime]

theorem secondHeader_other {s : State} {w0 : ServiceWord} {f : Frame}
    (h : ¬(headerValid w0 f.service = true ∧ f.service = s.rx.time + 16)) : s.secondHeader w0 f =
    s.setRx { s.rx.toSearch with hop := if headerValid w0 f.service = true then hopOf w0 else s.rx.hop } := by
  unfold State.secondHeader
  split
  · next hvalid => rw [if_neg fun htime => h ⟨hvalid, htime⟩]
  · rfl

/-- Settles O39. -/
theorem searchAndConfirmFindTheLink : Obligations.SearchAndConfirmFindTheLink := by
  refine ⟨fun s f hlock => ⟨fun hnone => ?_, fun w0 hw htime => ?_⟩, fun s f hlock hintime =>
    ⟨fun hfull => ?_, fun h1 h16 => ?_, fun w0 hw => ⟨fun hsync hstart htime => ?_, fun hother => ?_⟩⟩⟩
  · refine congrArg Host.Outcome.next ((frameArrives_search hlock f).trans ?_)
    rw [searchFrame_of_no_header (s := s.setRx s.rx.heard) hnone, examineFrame_eq]
    rfl
  · refine congrArg Host.Outcome.next ((frameArrives_search hlock f).trans ?_)
    rw [searchFrame_of_header (s := s.setRx s.rx.heard) hw htime]
    rfl
  · refine congrArg Host.Outcome.next ((frameArrives_confirm hlock hintime f).trans ?_)
    rw [confirmFrame_of_full (s := s.setRx s.rx.heard) hfull]
    rfl
  · refine congrArg Host.Outcome.next ((frameArrives_confirm hlock hintime f).trans ?_)
    rw [confirmFrame_of_word (s := s.setRx s.rx.heard) h1 h16]
    rfl
  · refine congrArg Host.Outcome.next ((frameArrives_confirm hlock hintime f).trans ?_)
    rw [confirmFrame_of_one (s := s.setRx s.rx.heard) hw, secondHeader_confirmed (s := s.setRx s.rx.heard)
      (headerValid_iff.mpr ⟨hsync, hstart⟩) htime]
    rfl
  · refine congrArg Host.Outcome.next ((frameArrives_confirm hlock hintime f).trans ?_)
    rw [confirmFrame_of_one (s := s.setRx s.rx.heard) hw, secondHeader_other (s := s.setRx s.rx.heard) fun ⟨hvalid, htime⟩ =>
      hother ⟨(headerValid_iff.mp hvalid).1, (headerValid_iff.mp hvalid).2, htime⟩]
    simp only [headerValid_iff]
    rfl

end Sys2Proof.Machine
end

/-! ## The reference clock (R18, R20, R21, R174) -/

section
namespace Sys2Proof.Machine

theorem chooseCell_eq_of_offers {s : State} {cell : Cell} {source : CellSource} (h : s.OffersCell cell source) :
    s.chooseCell = (cell, source) := by
  unfold State.chooseCell
  rcases h with ⟨hnotice, rfl, rfl⟩ | ⟨hnone, ⟨⟨rest, hforward⟩, rfl⟩ | ⟨hforward, ⟨⟨m, rest, hresponses, rfl⟩, rfl⟩ | ⟨hresponses, rfl, rfl⟩⟩⟩
  · rw [if_pos hnotice]
    rfl
  · rw [if_neg (not_not.mpr hnone), hforward]
  · rw [if_neg (not_not.mpr hnone), hforward, hresponses]
  · rw [if_neg (not_not.mpr hnone), hforward, hresponses]
    rfl

theorem NoticeState.start_eq (n : NoticeState) : n.start = if n = .none then .none else .sending := by cases n <;> rfl

theorem NoticeState.report_eq (n : NoticeState) : n.report =
    match n with | .none => .none | .pending => .pending | .sending => .none | .sendingAgain => .pending := by
  cases n <;> rfl

/-- What the sent report of a source leaves of the Cell Handler and of the Notice Unit (R21). -/
theorem sentReport_eq (s : State) (source : CellSource) : s.sentReport source = { s with
    cells := { s.cells with
      forward := if source = .forward then s.cells.forward.drop 1 else s.cells.forward
      responses := if source = .response then s.cells.responses.drop 1 else s.cells.responses }
    notice := { s.notice with state := if source = .notice then s.notice.state.report else s.notice.state } } := by
  cases source <;> rfl

theorem sendFrame_of_lt {s : State} (h : s.tx.sent < 16) (x : Samples) : s.sendFrame x =
    { s with sent := some ⟨x, s.tx.word s.tx.sent⟩, tx := { s.tx with sent := s.tx.sent + 1 } } := if_pos h

section
variable {s : State}

theorem sendSilence_of_lt (h : s.tx.sent < 15) : s.sendSilence = s.sendFrame silence := by
  have hprogress : s.outboundInProgress = true := decide_eq_true (by omega)
  have hdue : s.reportDue = none := if_neg (by omega)
  simp only [State.sendSilence, hprogress, if_true, hdue]

theorem sendSilence_of_last (h : s.tx.sent = 15) : s.sendSilence = (s.sendFrame silence).sentReport s.tx.source := by
  have hprogress : s.outboundInProgress = true := decide_eq_true (by omega)
  have hdue : s.reportDue = some s.tx.source := if_pos h
  simp only [State.sendSilence, hprogress, if_true, hdue]

theorem sendSilence_of_ended (h : 16 ≤ s.tx.sent) : s.sendSilence = (s.startOutbound s.nextLocalTime).sendFrame silence := by
  have hprogress : s.outboundInProgress = false := decide_eq_false (by omega)
  have hdue : (s.startOutbound s.nextLocalTime).reportDue = none := if_neg (by simp [State.startOutbound])
  simp only [State.sendSilence, hprogress, Bool.false_eq_true, if_false, hdue]

/-- A superframe begun on the reference clock: ABSENT, with the hop address last received (R18, R20). -/
theorem startOutbound_of_absent (h : s.rx.lock = .search ∨ s.rx.lock = .confirm) {cell : Cell} {source : CellSource}
    (hoffer : s.OffersCell cell source) (t : LinkTime) : s.startOutbound t = { s with
      tx := { time := t, absent := true, bypass := false, hop := s.rx.hop, cell := cell, source := source, sent := 0 }
      notice := { s.notice with state := if s.notice.state = .none then .none else .sending } } := by
  unfold State.startOutbound
  rw [chooseCell_eq_of_offers hoffer, NoticeState.start_eq]
  rcases h with h | h <;> rw [h] <;> rfl
end

theorem headerWord_absent (hop : Byte) : headerWord true false hop = (0x6B2D : BitVec 16) ++ (0b10 : BitVec 8) ++ hop := by
  rw [headerWord, (by decide : mark true 1 ||| mark false 0 = 0b10)]
  rfl

/-- A period of the reference clock in SEARCH and CONFIRM sends one silent frame. -/
theorem exec_referenceFramePeriod_of_absent {s : State} {rx : Receiver}
    (h : (s.rx.lock = .search ∧ rx = s.rx) ∨
      (s.rx.lock = .confirm ∧ s.framesInTime ∧ rx = { s.rx with periods := s.rx.periods + 1 })) :
    exec .referenceFramePeriod s = .next (s.setRx rx).sendSilence := by
  refine congrArg Host.Outcome.next ?_
  rcases h with ⟨hlock, rfl⟩ | ⟨hlock, htime, rfl⟩
  · rw [takeOwedTimeout_search hlock, State.onePeriod, hlock]
    rfl
  · rw [takeOwedTimeout_inTime htime, State.onePeriod, hlock]
    rfl

/-- Settles O43, by the count of the outbound superframe. -/
theorem referencePeriodsSendSilence : Obligations.ReferencePeriodsSendSilence := by
  intro s rx h
  have hlock : (s.setRx rx).rx.lock = .search ∨ (s.setRx rx).rx.lock = .confirm := by
    rcases h with ⟨hlock, rfl⟩ | ⟨hlock, -, rfl⟩
    · exact .inl hlock
    · exact .inr hlock
  have hhop : rx.hop = s.rx.hop := by
    rcases h with ⟨-, rfl⟩ | ⟨-, -, rfl⟩ <;> rfl
  rw [exec_referenceFramePeriod_of_absent h]
  refine ⟨fun hlt => ?_, fun hlast => ?_, fun cell source hended hoffer => ?_, fun s h => ?_⟩
  · rw [sendSilence_of_lt (s := s.setRx rx) hlt, sendFrame_of_lt (s := s.setRx rx) (by simp only [State.setRx_tx]; omega)]
    rfl
  · rw [sendSilence_of_last (s := s.setRx rx) hlast, sendFrame_of_lt (s := s.setRx rx) (by simp only [State.setRx_tx]; omega),
      sentReport_eq, NoticeState.report_eq]
    simp only [State.setRx_tx, hlast]
    rfl
  · rw [sendSilence_of_ended (s := s.setRx rx) hended, startOutbound_of_absent hlock hoffer, sendFrame_of_lt (by exact Nat.zero_lt_succ 15)]
    simp only [OutSuperframe.word, headerWord_absent, State.setRx_rx, hhop]
    rfl
  · refine congrArg Host.Outcome.next ?_
    rw [takeOwedTimeout_inTime h.2, State.onePeriod]
    rcases h.1 with hlock | hlock <;> rw [hlock] <;> rfl

end Sys2Proof.Machine
end

/-! ## Header errors and missing frames (R7 to R9) -/

section
namespace Sys2Proof.Machine

/-! ### Losing the lock (R8) -/

theorem loseLock_notice (s : State) : s.loseLock.notice = (s.claim .linkLost).notice := by
  unfold State.loseLock
  by_cases hlock : s.rx.lock = .running
  · rw [if_pos hlock]
    simp [State.claim_eq]
  · rw [if_neg hlock]
    rfl

theorem claim_sets (s : State) (k : Condition) : (s.claim k).notice.flags.getLsbD k.bit = true := by
  have h := claimIf_flag s.notice true k k
  rw [decide_eq_true rfl, Bool.true_and, Bool.or_true] at h
  exact h

section
variable {s : State} {p : Prog}

theorem meterDeparture_meters : s.meterDeparture.meters[p] =
    if s.opened p then { s.meters[p] with sum := 0, frames := 0, window := none } else s.meters[p] := getElem_ofFn_prog _ p

theorem gainDeparture_gains : s.gainDeparture.gains[p] =
    if s.opened p then { s.gains[p] with reduction := 0, guardLength := 0, guardCount := 0 } else s.gains[p] :=
  getElem_ofFn_prog _ p

theorem loseLock_of_running (h : s.rx.lock = .running) :
    s.loseLock.meters = s.meterDeparture.meters ∧ s.loseLock.gains = s.meterDeparture.gainDeparture.gains := by
  unfold State.loseLock
  rw [if_pos h]
  simp [State.claim]

theorem loseLock_of_settling (h : s.rx.lock ≠ .running) : s.loseLock.meters = s.meters ∧ s.loseLock.gains = s.gains := by
  unfold State.loseLock
  rw [if_neg h]
  exact ⟨rfl, rfl⟩

theorem meterDeparture_gainDeparture_gains : s.meterDeparture.gainDeparture.gains[p] =
    if s.opened p then { s.gains[p] with reduction := 0, guardLength := 0, guardCount := 0 } else s.gains[p] :=
  gainDeparture_gains (s := s.meterDeparture)

theorem loseLock_departed (hlock : s.rx.lock = .running) (hopen : s.progs[p].state ≠ .unused) :
    s.loseLock.meters[p] = { s.meters[p] with sum := 0, frames := 0, window := none } ∧
    s.loseLock.gains[p] = { s.gains[p] with reduction := 0, guardLength := 0, guardCount := 0 } := by
  have hopened : s.opened p = true := (opened_iff s p).mpr hopen
  rw [(loseLock_of_running hlock).1, (loseLock_of_running hlock).2, meterDeparture_meters, meterDeparture_gainDeparture_gains,
    if_pos hopened, if_pos hopened]
  exact ⟨rfl, rfl⟩

theorem loseLock_stays (h : s.rx.lock ≠ .running ∨ s.progs[p].state = .unused) :
    s.loseLock.meters[p] = s.meters[p] ∧ s.loseLock.gains[p] = s.gains[p] := by
  by_cases hlock : s.rx.lock = .running
  · have hclosed : ¬s.opened p = true := fun hopen => (opened_iff s p).mp hopen (h.resolve_left (not_not.mpr hlock))
    rw [(loseLock_of_running hlock).1, (loseLock_of_running hlock).2, meterDeparture_meters, meterDeparture_gainDeparture_gains,
      if_neg hclosed, if_neg hclosed]
    exact ⟨rfl, rfl⟩
  · rw [(loseLock_of_settling hlock).1, (loseLock_of_settling hlock).2]
    exact ⟨rfl, rfl⟩

/-! ### Header errors (R7) -/

theorem headerError_of_first (h : s.rx.errorRun = 0) :
    s.headerError = (s.setRx s.rx.takeError).setCells { s.cells with headerErrors := countUp s.cells.headerErrors } :=
  if_neg (by omega)

theorem headerError_of_second (h : 1 ≤ s.rx.errorRun) : s.headerError =
    ((s.setRx s.rx.takeError).setCells { s.cells with headerErrors := countUp s.cells.headerErrors }).loseLock :=
  if_pos (by omega)

/-- What the second header error in a row leaves: SEARCH, the error counted, LINK_LOST claimed, and the departure from RUNNING. -/
structure LockLost (s t : State) : Prop where
  rx : t.rx = { Receiver.reset with hop := s.rx.hop }
  notice : t.notice = (s.claim .linkLost).notice
  cells : t.cells = { s.cells with headerErrors := min 65535 (s.cells.headerErrors + 1) }
  delay : t.delay = s.delay
  sent : t.sent = s.sent
  tx : t.tx = s.tx
  departed (p : Prog) : s.rx.lock = .running → s.progs[p].state ≠ .unused →
    t.meters[p] = { s.meters[p] with sum := 0, frames := 0, window := none } ∧
    t.gains[p] = { s.gains[p] with reduction := 0, guardLength := 0, guardCount := 0 }
  stays (p : Prog) : s.rx.lock ≠ .running ∨ s.progs[p].state = .unused →
    t.meters[p] = s.meters[p] ∧ t.gains[p] = s.gains[p]

theorem headerError_lockLost (h : 1 ≤ s.rx.errorRun) : LockLost s s.headerError := by
  rw [headerError_of_second h]
  constructor
  case rx => rw [loseLock_rx]; rfl
  case notice => rw [loseLock_notice]; rfl
  case departed =>
    intro p hlock hopen
    exact loseLock_departed hlock hopen
  case stays =>
    intro p hstays
    exact loseLock_stays hstays
  all_goals simp only [State.loseLock_frame]; rfl

end

/-! ### Missing frames (R9) -/

theorem nextTimeout_eq (r : Receiver) : r.nextTimeout = 24 + 16 * r.timeouts := rfl

/-- In SETTLING and RUNNING the periods of the reference clock are counted alone. -/
theorem passPeriods_locked {s : State} (h : s.rx.lock = .settling ∨ s.rx.lock = .running) (n : Nat) :
    s.passPeriods n = s.setRx { s.rx with periods := s.rx.periods + n } := by
  induction n generalizing s with
  | zero => rfl
  | succ n ih =>
    have hone : s.onePeriod = s.setRx s.rx.passPeriod := by
      rcases h with h | h <;> rw [State.onePeriod, h]
    rw [State.passPeriods, hone, ih (by exact h), State.setRx_rx, Receiver.passPeriod, Nat.add_assoc, Nat.add_comm 1 n]
    rfl

theorem sendSilence_errors_flags (s : State) :
    s.sendSilence.cells.headerErrors = s.cells.headerErrors ∧ s.sendSilence.notice.flags = s.notice.flags := by
  have hsent (u : State) (source : CellSource) :
      (u.sentReport source).cells.headerErrors = u.cells.headerErrors ∧
      (u.sentReport source).notice.flags = u.notice.flags := by
    cases source <;> exact ⟨rfl, rfl⟩
  have hstart (u : State) (t : LinkTime) :
      (u.startOutbound t).cells = u.cells ∧ (u.startOutbound t).notice.flags = u.notice.flags := ⟨by simp, rfl⟩
  unfold State.sendSilence
  dsimp only
  split <;> split <;> simp [hsent, hstart]

/-- In CONFIRM the periods of the reference clock are counted, and the silent frames sent for them count no header error and set no
flag. -/
theorem passPeriods_confirm {s : State} (h : s.rx.lock = .confirm) (n : Nat) :
    (s.passPeriods n).rx = { s.rx with periods := s.rx.periods + n } ∧
    (s.passPeriods n).cells.headerErrors = s.cells.headerErrors ∧ (s.passPeriods n).notice.flags = s.notice.flags := by
  induction n generalizing s with
  | zero => exact ⟨rfl, rfl, rfl⟩
  | succ n ih =>
    have hone : s.onePeriod = (s.setRx s.rx.passPeriod).sendSilence := by rw [State.onePeriod, h]
    have hrx : (s.setRx s.rx.passPeriod).sendSilence.rx = s.rx.passPeriod := by simp
    have hflags := sendSilence_errors_flags (s.setRx s.rx.passPeriod)
    obtain ⟨hrest, herrors, hnotice⟩ := ih (s := (s.setRx s.rx.passPeriod).sendSilence) (by rw [hrx]; exact h)
    rw [State.passPeriods, hone]
    refine ⟨hrest.trans ?_, herrors.trans hflags.1, hnotice.trans hflags.2⟩
    rw [hrx, Receiver.passPeriod, Nat.add_assoc, Nat.add_comm 1 n]

theorem missFrames_of_search {s : State} (h : s.rx.lock = .search) : missFrames s = s := if_pos h

theorem missFrames_of_confirm {s : State} (h : s.rx.lock = .confirm) :
    missFrames s = (s.passPeriods (s.rx.nextTimeout - s.rx.periods)).setRx { Receiver.reset with hop := s.rx.hop } := by
  have hrx := (passPeriods_confirm h (s.rx.nextTimeout - s.rx.periods)).1
  rw [missFrames, if_neg (by rw [h]; decide), State.takeTimeout, hrx]
  simp only [h]
  rfl

/-- In SETTLING and RUNNING the count reaches the next timeout, and a header error is taken. -/
theorem missFrames_of_locked {s : State} (h : s.rx.lock = .settling ∨ s.rx.lock = .running) : missFrames s =
    (s.setRx { s.rx with
      periods := max s.rx.periods (24 + 16 * s.rx.timeouts), timeouts := s.rx.timeouts + 1 }).headerError := by
  have hperiods : s.rx.periods + (s.rx.nextTimeout - s.rx.periods) = max s.rx.periods (24 + 16 * s.rx.timeouts) := by
    rw [nextTimeout_eq]
    omega
  rw [missFrames, if_neg (by rcases h with h | h <;> rw [h] <;> decide), passPeriods_locked h, hperiods, State.takeTimeout]
  rcases h with h | h <;> simp only [State.setRx_rx, h] <;> rfl

/-- A header error of missing frames that was due and has been taken is not due again. -/
theorem takeOwedTimeout_takeTimeout {s : State} (hlock : s.rx.lock ≠ .search) (h : s.rx.periods < 40 + 16 * s.rx.timeouts) :
    s.takeTimeout.takeOwedTimeout = s.takeTimeout := by
  refine takeOwedTimeout_inTime ?_
  have hreset : s.rx.toSearch.periods < s.rx.toSearch.nextTimeout := by
    simp [Receiver.toSearch, Receiver.reset, Receiver.nextTimeout]
  have herror : s.rx.passTimeout.takeError.periods < s.rx.passTimeout.takeError.nextTimeout := by
    simp only [Receiver.takeError, Receiver.passTimeout, Receiver.nextTimeout]
    omega
  unfold State.framesInTime
  rw [takeTimeout_rx]
  cases hl : s.rx.lock with
  | search => exact absurd hl hlock
  | confirm => exact hreset
  | settling | running =>
    dsimp only
    split
    · exact hreset
    · exact herror

/-- Settles O42, by the lock state. -/
theorem missingFramesAreHeaderErrors : Obligations.MissingFramesAreHeaderErrors := by
  refine ⟨fun s hlock => ?_, fun s hlock => ?_, fun s hlock => ⟨fun hrun => ?_, fun hrun => ?_⟩, fun s u hlock hdue hlast hexec => ?_⟩
  · exact congrArg Host.Outcome.next (missFrames_of_search hlock)
  · obtain ⟨-, herrors, hflags⟩ := passPeriods_confirm hlock (s.rx.nextTimeout - s.rx.periods)
    refine ⟨_, congrArg Host.Outcome.next (missFrames_of_confirm hlock), rfl, herrors, hflags, by simp, fun hdue => ?_⟩
    rw [nextTimeout_eq, Nat.sub_eq_zero_of_le hdue]
    rfl
  · exact congrArg Host.Outcome.next ((missFrames_of_locked hlock).trans
      ((headerError_of_first (by exact hrun)).trans (by simp only [Receiver.takeError, State.setRx_rx, hrun]; rfl)))
  · have hlost := headerError_lockLost (s := s.setRx { s.rx with
      periods := max s.rx.periods (24 + 16 * s.rx.timeouts), timeouts := s.rx.timeouts + 1 }) hrun
    refine ⟨_, congrArg Host.Outcome.next (missFrames_of_locked hlock), hlost.rx, ?_, ?_, hlost.delay, hlost.sent, hlost.tx,
      fun p => ⟨hlost.departed p, fun hstays => hlost.stays p (hstays.imp_left fun h => ?_)⟩⟩
    · rw [hlost.cells]
      rfl
    · rw [hlost.notice]
      exact claim_sets _ .linkLost
    · exact fun hr => by cases h.symm.trans hr
  · have hu : u = s.takeTimeout := by
      have hmiss : missFrames s = s.takeTimeout := missFrames_due hlock hdue
      exact (Host.Outcome.next.inj hexec).symm.trans hmiss
    have howed : s.takeOwedTimeout = u.takeOwedTimeout := by
      rw [hu, takeOwedTimeout_takeTimeout hlock hlast, takeOwedTimeout_due hdue]
    refine ⟨fun f => congrArg Host.Outcome.next ?_, congrArg Host.Outcome.next ?_⟩
    · rw [State.frameArrives, State.frameArrives, howed]
    · rw [howed]

end Sys2Proof.Machine
end

/-! ## The frame through the part: the delay line, the outbound frame, and its service word (R16, R17, R20) -/

section
namespace Sys2Proof.Machine

/-! ### The words of an outbound superframe (R20, R163) -/

theorem mark_eq (absent bypass : Bool) : mark absent 1 ||| mark bypass 0 =
    ((if absent then 0b10 else 0) ||| (if bypass then 0b01 else 0) : BitVec 8) := by
  cases absent <;> cases bypass <;> decide

theorem word_zero (o : OutSuperframe) : o.word 0 = (0x6B2D : BitVec 16) ++
    ((if o.absent then 0b10 else 0) ||| (if o.bypass then 0b01 else 0) : BitVec 8) ++ o.hop := by
  rw [← mark_eq]
  rfl

theorem word_of_cell (o : OutSuperframe) {k : Nat} (h : 2 ≤ k) : o.word k = cellWord o.cell k := by
  obtain ⟨n, rfl⟩ := Nat.exists_eq_add_of_le' h
  rfl

/-! ### What a frame that passes leaves (R16, R17, R47, R152) -/

/-- The state once a frame has entered the delay line and, in RUNNING, the Meter has added it up and the frame check has weighed the
frame that leaves. -/
def State.weighed (s : State) (x : Samples) : State :=
  if s.rx.lock = .running then (s.carryFrame x).accumulate.frameCheck (s.delay.headD silence) else s.carryFrame x

theorem passFrame_eq (s : State) (x : Samples) : s.passFrame x =
    ((s.weighed x).sendFrame ((s.weighed x).outSamples (s.delay.headD silence))).reportAndArrive (s.weighed x).reportDue
      (if s.rx.words.length = 16 ∧ s.rx.header = .valid then some (cellOfWords s.rx.words) else none) := rfl

theorem weighed_of_running {s : State} (h : s.rx.lock = .running) (x : Samples) :
    s.weighed x = (s.carryFrame x).accumulate.frameCheck (s.delay.headD silence) := if_pos h

theorem weighed_of_settling {s : State} (h : s.rx.lock ≠ .running) (x : Samples) : s.weighed x = s.carryFrame x := if_neg h

/-- The weighing changes the delay line, the filters, the Meter's and the Gain Stage's records, and nothing else. -/
theorem weighed_eq (s : State) (x : Samples) : s.weighed x = { s with
    delay := s.delay.drop 1 ++ [x], filterInput := x :: s.filterInput
    meters := (s.weighed x).meters, gains := (s.weighed x).gains } := by
  unfold State.weighed
  split <;> rfl

theorem passFrame_filterInput (s : State) (x : Samples) : (s.passFrame x).filterInput = x :: s.filterInput := by
  rw [passFrame_eq, weighed_eq]
  simp

theorem passFrame_gains (s : State) (x : Samples) : (s.passFrame x).gains = (s.weighed x).gains := by
  rw [passFrame_eq]
  simp

theorem outSample_congr {s t : State} (hslots : t.slots = s.slots) (hrx : t.rx = s.rx) (hgains : t.gains = s.gains) (i : SlotNo)
    (x : Sample) : t.outSample i x = s.outSample i x := by
  unfold State.outSample
  rw [hslots, hrx, hgains]

/-- The outbound frame holds the samples that leave the delay line, slot by slot, under the gains the frame check leaves. -/
theorem passFrame_out (s : State) (x : Samples) : ∃ out, (s.passFrame x).sent = some out ∧
    (s.tx.sent < 16 → out.service = s.tx.word s.tx.sent) ∧
    ∀ i : SlotNo, out.samples[i] = (s.passFrame x).outSample i (s.delay.headD silence)[i] := by
  obtain ⟨-, out, hsent, hservice⟩ := passFrame_sent s x
  obtain ⟨out', hsent', hsamples⟩ := sendFrame_samples (s.weighed x) ((s.weighed x).outSamples (s.delay.headD silence))
  have hsame : (s.passFrame x).sent = some out' := by
    rw [passFrame_eq]
    simpa using hsent'
  obtain rfl : out = out' := Option.some.inj (hsent.symm.trans hsame)
  refine ⟨out, hsent, hservice, fun i => ?_⟩
  have hslots : (s.passFrame x).slots = (s.weighed x).slots := by
    rw [passFrame_eq]
    simp
  have hrx : (s.passFrame x).rx = (s.weighed x).rx := by
    rw [passFrame_eq]
    simp
  rw [hsamples, outSample_congr hslots hrx (passFrame_gains s x)]
  simp [State.outSamples]

/-! ### A superframe start -/

theorem startSuperframe_sent (s : State) (w : ServiceWord) : (s.startSuperframe w).tx.sent = 0 :=
  startSuperframe_cases (P := fun t => t.tx.sent = 0) (fun _ => rfl) fun _ _ _ _ _ => rfl

/-- What an inbound frame that leaves the lock held leaves of the delay line, and what it sends. -/
structure FramePassed (s t : State) (f : Frame) : Prop where
  delay : t.delay = s.delay.drop 1 ++ [f.samples]
  filterInput : t.filterInput = f.samples :: s.filterInput
  slots : t.slots = s.slots
  sent : ∃ out, t.sent = some out ∧ (s.rx.words.length = 16 → out.service = t.tx.word 0) ∧
    (s.rx.words.length ≠ 16 → s.tx.sent < 16 → out.service = s.tx.word s.tx.sent) ∧
    ∀ i : SlotNo, out.samples[i] = t.outSample i (s.delay.headD silence)[i]

theorem framePassed_of_word {s u : State} {f : Frame} (hlength : s.rx.words.length ≠ 16) (hdelay : u.delay = s.delay)
    (hfilter : u.filterInput = s.filterInput) (hslots : u.slots = s.slots) (htx : u.tx = s.tx) :
    FramePassed s (u.passFrame f.samples) f where
  delay := by rw [passFrame_delay, hdelay]
  filterInput := by rw [passFrame_filterInput, hfilter]
  slots := by simpa using hslots
  sent := by
    obtain ⟨out, hsent, hservice, hsamples⟩ := passFrame_out u f.samples
    rw [htx] at hservice
    rw [hdelay] at hsamples
    exact ⟨out, hsent, fun h => absurd h hlength, fun _ => hservice, hsamples⟩

theorem framePassed_of_start {s : State} (hlength : s.rx.words.length = 16) (f : Frame) :
    FramePassed s ((s.startSuperframe f.service).passFrame f.samples) f where
  delay := by simp
  filterInput := by simp [passFrame_filterInput]
  slots := by simp
  sent := by
    have hzero := startSuperframe_sent s f.service
    obtain ⟨out, hsent, hservice, hsamples⟩ := passFrame_out (s.startSuperframe f.service) f.samples
    obtain ⟨htx, -⟩ := passFrame_sent (s.startSuperframe f.service) f.samples
    rw [hzero] at hservice htx
    rw [if_pos (by decide)] at htx
    have hdelay : (s.startSuperframe f.service).delay = s.delay := by simp
    rw [hdelay] at hsamples
    refine ⟨out, hsent, fun _ => ?_, fun hne => absurd hlength hne, hsamples⟩
    rw [htx, hservice (by decide)]
    rfl

/-- While the link is followed an inbound frame passes through the part, unless its header ends the lock. -/
theorem frameArrives_framePassed {s : State} (h : s.followsTheLink) (f : Frame) :
    (s.frameArrives f).rx.lock = .search ∨ FramePassed s (s.frameArrives f) f := by
  rw [frameArrives_following h]
  refine heldFrame_cases (P := fun t => t.rx.lock = .search ∨ FramePassed s t f) (fun hlength => ?_) (fun w0 hw hlost => ?_)
    (fun w0 hw hheld => ?_) fun h16 _ => ?_
  · have hpassed := framePassed_of_start (s := s.setRx s.rx.heard) hlength f
    exact .inr ⟨hpassed.delay, hpassed.filterInput, hpassed.slots, hpassed.sent⟩
  · exact .inl hlost
  · have hlength : s.rx.words.length ≠ 16 := by
      have hwords : s.rx.words = [w0] := hw
      rw [hwords, List.length_singleton]
      decide
    exact .inr (framePassed_of_word hlength (by simp) (by simp) (by simp) (by simp))
  · exact .inr (framePassed_of_word (by exact h16) (by simp) (by simp) (by simp) (by simp))

/-- Settles O44, slot by slot. -/
theorem framesPassTheDelayLine : Obligations.FramesPassTheDelayLine := by
  refine ⟨fun o => ⟨word_zero o, rfl, fun k hlow _ => word_of_cell o hlow⟩, fun s f hfollows => ⟨_, rfl, ?_⟩⟩
  refine (frameArrives_framePassed hfollows f).imp_right fun hpassed => ?_
  obtain ⟨out, hsent, hfirst, hnext, hsamples⟩ := hpassed.sent
  refine ⟨hpassed.delay, hpassed.filterInput, hpassed.slots, out, hsent, hfirst, hnext, fun i x hx => ?_⟩
  have hsample := hsamples i
  rw [← hx, State.outSample, hpassed.slots] at hsample
  refine ⟨fun hslot => ?_, fun hslot => ?_, fun p w hslot => ?_, fun p w hslot => ?_⟩
  · simp only [hsample, hslot]
  · simp only [hsample, hslot]
  · simp only [hsample, hslot]
  · simp only [hsample, hslot, GainRecord.applied]

end Sys2Proof.Machine
end

/-! ## The header check at frame 1 (R7, R8, R11, R12) -/

section
namespace Sys2Proof.Machine

theorem State.sentReport_flags (s : State) (source : CellSource) : (s.sentReport source).notice.flags = s.notice.flags := by
  cases source <;> rfl

/-- The state after a header check that leaves the lock held. -/
def State.afterCheck (s : State) (r : Receiver) (errors : Nat) (adopted : Bool) : State :=
  { s with
    rx := r, cells := { s.cells with headerErrors := errors }
    notice := if adopted then (s.claim .timeSlip).notice else s.notice }

/-- What frame 1 leaves where its header leaves the lock held. -/
structure HeaderTaken (s t : State) (r : Receiver) (errors : Nat) (adopted : Bool) : Prop where
  rx : t.rx = r
  flags (k : Condition) : t.notice.flags.getLsbD k.bit = true ↔
    s.notice.flags.getLsbD k.bit = true ∨ (k = .timeSlip ∧ adopted = true)
  notice : s.tx.sent ≠ 15 → t.notice = if adopted then (s.claim .timeSlip).notice else s.notice
  cells : t.cells = { s.cells with
    headerErrors := errors
    forward := if s.tx.sent = 15 ∧ s.tx.source = .forward then s.cells.forward.drop 1 else s.cells.forward
    responses := if s.tx.sent = 15 ∧ s.tx.source = .response then s.cells.responses.drop 1 else s.cells.responses }

theorem reportDue_of_last {s : State} (h : s.tx.sent = 15) : s.reportDue = some s.tx.source := if_pos h

theorem reportDue_of_not_last {s : State} (h : s.tx.sent ≠ 15) : s.reportDue = none := if_neg h

/-- The Cell Handler and the Notice Unit after a frame that brings no cell. -/
theorem passFrame_cells_notice {s : State} (hw : ¬(s.rx.words.length = 16 ∧ s.rx.header = .valid)) (x : Samples) :
    (s.passFrame x).cells = { s.cells with
      forward := if s.tx.sent = 15 ∧ s.tx.source = .forward then s.cells.forward.drop 1 else s.cells.forward
      responses := if s.tx.sent = 15 ∧ s.tx.source = .response then s.cells.responses.drop 1 else s.cells.responses } ∧
    (s.passFrame x).notice = { s.notice with
      state := if s.tx.sent = 15 ∧ s.tx.source = .notice then s.notice.state.report else s.notice.state } := by
  obtain ⟨hcells, hnotice⟩ := passFrame_report s x hw
  rw [hcells, hnotice]
  by_cases hlast : s.tx.sent = 15
  · rw [reportDue_of_last hlast]
    simp only [sentReport_eq, hlast, true_and, and_self]
  · rw [reportDue_of_not_last hlast]
    simp only [hlast, false_and, if_false, and_self]

theorem headerTaken_afterCheck {s : State} {r : Receiver} (hwords : r.words.length = 2) (errors : Nat) (adopted : Bool)
    (x : Samples) : HeaderTaken s ((s.afterCheck r errors adopted).passFrame x) r errors adopted := by
  have hw : ¬((s.afterCheck r errors adopted).rx.words.length = 16 ∧ (s.afterCheck r errors adopted).rx.header = .valid) :=
    fun h => absurd (hwords.symm.trans h.1) (by decide)
  obtain ⟨hcells, hnotice⟩ := passFrame_cells_notice hw x
  constructor
  case rx => simp [State.afterCheck]
  case flags =>
    intro k
    rw [hnotice]
    cases adopted with
    | false => simp [State.afterCheck]
    | true =>
      have hclaim : (s.claim .timeSlip).notice.flags.getLsbD k.bit = (s.notice.flags.getLsbD k.bit || (true && decide (k = .timeSlip))) :=
        claimIf_flag s.notice true .timeSlip k
      simp only [State.afterCheck, if_true, hclaim, Bool.true_and, Bool.or_eq_true, decide_eq_true_eq, and_true]
  case notice =>
    intro hsent
    rw [hnotice, if_neg fun h => hsent h.1]
    rfl
  case cells => exact hcells

theorem heldFrame_of_one {s : State} {w0 : ServiceWord} (hw : s.rx.words = [w0]) (f : Frame) : s.heldFrame f =
    if (s.checkHeader w0 f.service).rx.lock = .search then s.checkHeader w0 f.service
    else (s.checkHeader w0 f.service).passFrame f.samples := by
  unfold State.heldFrame
  rw [if_neg (by rw [hw, List.length_singleton]; decide), hw]

/-- The receiver once frame 1 has been heard and its word taken, before the header is checked. -/
def Receiver.atCheck (r : Receiver) (w0 w1 : ServiceWord) : Receiver := { r with periods := 0, timeouts := 0, words := [w0, w1] }

section
variable {s : State} {w0 : ServiceWord} {f : Frame}

theorem frameArrives_of_afterCheck (h : s.followsTheLink) (hw : s.rx.words = [w0]) {r : Receiver} {errors : Nat} {adopted : Bool}
    (hcheck : (s.setRx s.rx.heard).checkHeader w0 f.service = s.afterCheck r errors adopted) (hlock : r.lock = s.rx.lock)
    (hwords : r.words.length = 2) : HeaderTaken s (s.frameArrives f) r errors adopted := by
  have hheld : ¬(s.afterCheck r errors adopted).rx.lock = .search := by
    rw [State.afterCheck, hlock]
    rcases h.1 with h | h <;> rw [h] <;> decide
  rw [frameArrives_following h, heldFrame_of_one (by exact hw), hcheck, if_neg hheld]
  exact headerTaken_afterCheck hwords errors adopted f.samples

/-! ### The branches of the check -/

theorem checkHeader_of_taken (h : s.rx.header = .error) : (s.setRx s.rx.heard).checkHeader w0 f.service =
    s.afterCheck (s.rx.atCheck w0 f.service) s.cells.headerErrors false := if_pos h

theorem checkHeader_of_valid (h : s.rx.header ≠ .error) (hvalid : headerValid w0 f.service = true) :
    (s.setRx s.rx.heard).checkHeader w0 f.service =
      (s.setRx (s.rx.atCheck w0 f.service)).validHeader (hopOf w0) f.service :=
  (if_neg h).trans (if_pos hvalid)

theorem checkHeader_of_invalid (h : s.rx.header ≠ .error) (hinvalid : ¬headerValid w0 f.service = true) :
    (s.setRx s.rx.heard).checkHeader w0 f.service = (s.setRx (s.rx.atCheck w0 f.service)).headerError :=
  (if_neg h).trans (if_neg hinvalid)

theorem validHeader_of_expected (htime : f.service = s.rx.time) :
    (s.setRx (s.rx.atCheck w0 f.service)).validHeader (hopOf w0) f.service = s.afterCheck
      { s.rx.atCheck w0 f.service with errorRun := 0, header := .valid, hop := w0.extractLsb' 0 8, slip := none }
      s.cells.headerErrors false := if_pos htime

theorem validHeader_of_adopted (htime : f.service ≠ s.rx.time) (hslip : s.rx.slip.map (fun x => x + 16) = some f.service) :
    (s.setRx (s.rx.atCheck w0 f.service)).validHeader (hopOf w0) f.service = s.afterCheck
      { s.rx.atCheck w0 f.service with
        errorRun := 0, header := .valid, hop := w0.extractLsb' 0 8, slip := none, expected := some (f.service + 16) }
      s.cells.headerErrors true :=
  (if_neg htime).trans (if_pos hslip)

theorem validHeader_of_candidate (htime : f.service ≠ s.rx.time) (hslip : s.rx.slip.map (fun x => x + 16) ≠ some f.service) :
    (s.setRx (s.rx.atCheck w0 f.service)).validHeader (hopOf w0) f.service = s.afterCheck
      { s.rx.atCheck w0 f.service with
        errorRun := 0, header := .valid, hop := w0.extractLsb' 0 8, slip := some f.service }
      s.cells.headerErrors false :=
  (if_neg htime).trans (if_neg hslip)

theorem checkHeader_of_first_error (h : s.rx.header ≠ .error) (hinvalid : ¬headerValid w0 f.service = true)
    (hrun : s.rx.errorRun = 0) : (s.setRx s.rx.heard).checkHeader w0 f.service = s.afterCheck
      { s.rx.atCheck w0 f.service with errorRun := 1, header := .error, slip := none }
      (min 65535 (s.cells.headerErrors + 1)) false := by
  rw [checkHeader_of_invalid h hinvalid, headerError_of_first (by exact hrun)]
  simp only [Receiver.takeError, State.setRx_rx, Receiver.atCheck, hrun]
  rfl

theorem frameArrives_of_second_error (hfollows : s.followsTheLink) (hw : s.rx.words = [w0]) (h : s.rx.header ≠ .error)
    (hinvalid : ¬headerValid w0 f.service = true) (hrun : 1 ≤ s.rx.errorRun) :
    LockLost (s.setRx (s.rx.atCheck w0 f.service)) (s.frameArrives f) := by
  have hlost := headerError_lockLost (s := s.setRx (s.rx.atCheck w0 f.service)) hrun
  rw [frameArrives_following hfollows, heldFrame_of_one (by exact hw), checkHeader_of_invalid h hinvalid,
    if_pos (by rw [hlost.rx]; rfl)]
  exact hlost

theorem slip_adopts_iff {slip : Option LinkTime} {t : LinkTime} :
    slip.map (fun x => x + 16) = some t ↔ ∃ x, slip = some x ∧ t = x + 16 := by
  rw [Option.map_eq_some_iff]
  exact exists_congr fun x => and_congr_right fun _ => eq_comm
end

/-- Settles O41, by the branches of the header check. -/
theorem headersAreCheckedAtFrameOne : Obligations.HeadersAreCheckedAtFrameOne := by
  intro s f w0 valid adopted lost heard hfollows hw hvalid hheard hadopted hlost
  have hlocked : s.rx.lock ≠ .search := by rcases hfollows.1 with h | h <;> rw [h] <;> decide
  have hvalid_iff : headerValid w0 f.service = true ↔ valid = true := by rw [headerValid_iff, hvalid, decide_eq_true_eq]
  have hheard : s.rx.atCheck w0 f.service = heard := hheard.symm
  by_cases hl : s.rx.header ≠ .error ∧ valid = false ∧ 1 ≤ s.rx.errorRun
  · obtain ⟨hheader, hbad, hrun⟩ := hl
    have hlost : lost = true := by rw [hlost]; exact decide_eq_true ⟨hheader, hbad, hrun⟩
    have hadopted : adopted = false := by rw [hadopted, decide_eq_false_iff_not]; exact fun h => by simp [hbad] at h
    have h := frameArrives_of_second_error hfollows hw hheader (by rw [hvalid_iff, hbad]; decide) hrun
    have hclaim (k : Condition) : (s.claim .linkLost).notice.flags.getLsbD k.bit =
        (s.notice.flags.getLsbD k.bit || (true && decide (k = .linkLost))) := claimIf_flag s.notice true .linkLost k
    refine ⟨_, rfl, ⟨fun _ => hlost, fun _ => by rw [h.rx]; rfl⟩, fun k => ?_, fun _ => h.notice, fun hno => ?_, ?_,
      fun he => absurd he hheader, fun _ hv => ?_, fun _ _ => ⟨?_, fun hz => ?_, fun _ => ⟨h.rx, ?_, h.delay, h.sent, h.tx, fun hr p hp =>
        h.departed p hr hp⟩⟩⟩
    · rw [h.notice]
      refine (Bool.eq_iff_iff.mp (hclaim k)).trans ?_
      simp [hlost, hadopted]
    · exact absurd (hno.symm.trans hlost) (by decide)
    · rw [h.cells]
      simp [hlost]
    · exact absurd (hv.symm.trans hbad) (by decide)
    · rw [h.cells]
      rfl
    · exact absurd hrun (by omega)
    · rw [h.notice]
      exact claim_sets s .linkLost
  · have hkept : lost = false := by rw [hlost]; exact decide_eq_false hl
    have key {r : Receiver} {errors : Nat} {a : Bool} (ha : adopted = a) (h : HeaderTaken s (s.frameArrives f) r errors a)
        (hr : r.lock = s.rx.lock) : ((s.frameArrives f).rx.lock = .search ↔ lost = true) ∧
        (∀ k : Condition, (s.frameArrives f).notice.flags.getLsbD k.bit = true ↔ s.notice.flags.getLsbD k.bit = true ∨
          (k = .timeSlip ∧ adopted = true) ∨ (k = .linkLost ∧ lost = true)) ∧
        (lost = true → (s.frameArrives f).notice = (s.claim .linkLost).notice) ∧
        (lost = false → s.tx.sent ≠ 15 →
          (s.frameArrives f).notice = if adopted then (s.claim .timeSlip).notice else s.notice) := by
      rw [h.rx, hr, hkept, ha]
      exact ⟨⟨fun he => absurd he hlocked, (nomatch ·)⟩, fun k => (h.flags k).trans (by simp), (nomatch ·), fun _ => h.notice⟩
    by_cases hheader : s.rx.header = .error
    · have h := frameArrives_of_afterCheck hfollows hw (checkHeader_of_taken (f := f) hheader) rfl rfl
      have ha : adopted = false := by rw [hadopted]; exact decide_eq_false fun he => he.1 hheader
      obtain ⟨hlock, hflags, hnotice, hquiet⟩ := key ha h rfl
      refine ⟨_, rfl, hlock, hflags, hnotice, hquiet, by rw [h.cells, hkept]; simp, fun _ => ⟨h.rx.trans hheard, by rw [h.cells]⟩,
        fun hne => absurd hheader hne, fun hne => absurd hheader hne⟩
    by_cases hgood : valid = true
    · have hbranch := checkHeader_of_valid (f := f) (w0 := w0) hheader (hvalid_iff.mpr hgood)
      by_cases htime : f.service = s.rx.time
      · have h := frameArrives_of_afterCheck hfollows hw (hbranch.trans (validHeader_of_expected htime)) rfl rfl
        have ha : adopted = false := by rw [hadopted]; exact decide_eq_false fun he => he.2.2.1 htime
        obtain ⟨hlock, hflags, hnotice, hquiet⟩ := key ha h rfl
        refine ⟨_, rfl, hlock, hflags, hnotice, hquiet, by rw [h.cells, hkept]; simp, fun he => absurd he hheader,
          fun _ _ => ⟨by rw [h.cells], fun _ => hheard ▸ h.rx, fun _ hne => absurd htime hne, fun hne => absurd htime hne⟩,
          fun _ hbad => absurd (hgood.symm.trans hbad) (by decide)⟩
      · by_cases hslip : s.rx.slip.map (fun x => x + 16) = some f.service
        · have h := frameArrives_of_afterCheck hfollows hw (hbranch.trans (validHeader_of_adopted htime hslip)) rfl rfl
          have ha : adopted = true := by rw [hadopted]; exact decide_eq_true ⟨hheader, hgood, htime, hslip⟩
          obtain ⟨hlock, hflags, hnotice, hquiet⟩ := key ha h rfl
          obtain ⟨y, hy, hservice⟩ := slip_adopts_iff.mp hslip
          refine ⟨_, rfl, hlock, hflags, hnotice, hquiet, by rw [h.cells, hkept]; simp, fun he => absurd he hheader,
            fun _ _ => ⟨by rw [h.cells], fun he => absurd he htime,
              fun x _ _ _ => ⟨hheard ▸ h.rx, (h.flags .timeSlip).mpr (.inr ⟨rfl, rfl⟩)⟩,
              fun _ hne => absurd hservice (hne y hy)⟩,
            fun _ hbad => absurd (hgood.symm.trans hbad) (by decide)⟩
        · have h := frameArrives_of_afterCheck hfollows hw (hbranch.trans (validHeader_of_candidate htime hslip)) rfl rfl
          have ha : adopted = false := by rw [hadopted]; exact decide_eq_false fun he => hslip he.2.2.2
          obtain ⟨hlock, hflags, hnotice, hquiet⟩ := key ha h rfl
          refine ⟨_, rfl, hlock, hflags, hnotice, hquiet, by rw [h.cells, hkept]; simp, fun he => absurd he hheader,
            fun _ _ => ⟨by rw [h.cells], fun he => absurd he htime,
              fun x _ hx hservice => absurd (slip_adopts_iff.mpr ⟨x, hx, hservice⟩) hslip, fun _ _ => hheard ▸ h.rx⟩,
            fun _ hbad => absurd (hgood.symm.trans hbad) (by decide)⟩
    · have hbad : valid = false := Bool.eq_false_iff.mpr hgood
      have hrun : s.rx.errorRun = 0 := Nat.eq_zero_of_not_pos fun h => hl ⟨hheader, hbad, h⟩
      have h := frameArrives_of_afterCheck hfollows hw
        (checkHeader_of_first_error (f := f) hheader (mt hvalid_iff.mp hgood) hrun) rfl rfl
      have ha : adopted = false := by rw [hadopted]; exact decide_eq_false fun he => hgood he.2.1
      obtain ⟨hlock, hflags, hnotice, hquiet⟩ := key ha h rfl
      exact ⟨_, rfl, hlock, hflags, hnotice, hquiet, by rw [h.cells, hkept]; simp, fun he => absurd he hheader,
        fun _ he => absurd he hgood,
        fun _ _ => ⟨by rw [h.cells], fun _ => hheard ▸ h.rx, fun he => absurd he (by omega)⟩⟩

end Sys2Proof.Machine
end

/-! ## Arriving cells (R15, R163, R166 to R169, R175) -/

section
namespace Sys2Proof.Machine

/-! ### The cell of a superframe (R15, R163) -/

theorem getD_bytes32 (w : ServiceWord) {i : Nat} (hi : i < 4) : (bytes32 w).getD i 0 = w.extractLsb' (8 * (3 - i)) 8 := by
  interval_cases i <;> rfl

theorem getD_flatMap_bytes32 (l : List ServiceWord) (j : Nat) {i : Nat} (hi : i < 4) (hj : j < l.length) :
    (l.flatMap bytes32).getD (4 * j + i) 0 = (l.getD j 0).extractLsb' (8 * (3 - i)) 8 := by
  induction l generalizing j with
  | nil => exact absurd hj (Nat.not_lt_zero _)
  | cons w l ih =>
    rw [List.flatMap_cons]
    cases j with
    | zero =>
      rw [List.getD_append _ _ _ _ (by rw [length_bytes32]; omega), Nat.mul_zero, Nat.zero_add, getD_bytes32 w hi]
      rfl
    | succ j =>
      rw [List.getD_append_right _ _ _ _ (by rw [length_bytes32]; omega), length_bytes32,
        (by omega : 4 * (j + 1) + i - 4 = 4 * j + i), ih j (Nat.lt_of_succ_lt_succ hj)]
      rfl

theorem length_flatMap_bytes32 (l : List ServiceWord) : (l.flatMap bytes32).length = 4 * l.length := by
  simp [List.length_flatMap, Nat.mul_comm]

theorem getD_cellOfWords {words : List ServiceWord} (hlength : words.length = 16) {k i : Nat} (hlow : 2 ≤ k) (hhigh : k ≤ 15)
    (hi : i < 4) : (cellOfWords words).getD (4 * (k - 2) + i) 0 = (words.getD k 0).extractLsb' (8 * (3 - i)) 8 := by
  rw [cellOfWords, getD_flatMap_bytes32 _ _ hi (by rw [List.length_drop]; omega), List.getD_eq_getElem?_getD,
    List.getElem?_drop, (by omega : 2 + (k - 2) = k), ← List.getD_eq_getElem?_getD]

/-! ### Sorting a cell (R166 to R168) -/

theorem address_ne_zero (s : State) : s.address ≠ 0 := by
  rw [State.address_eq]
  generalize s.straps.address = a
  revert a
  decide

theorem address_ne_broadcast (s : State) : s.address ≠ 0xFF := by
  rw [State.address_eq]
  generalize s.straps.address = a
  revert a
  decide

theorem claim_cellLoss_flags (n : NoticeUnit) : (n.claim .cellLoss).flags = n.flags ||| 0x100 := by
  by_cases h : n.flags.getLsbD Condition.cellLoss.bit = true
  · rw [NoticeUnit.claim_of_set h]
    refine BitVec.eq_of_getLsbD_eq fun i hi => ?_
    rw [BitVec.getLsbD_or]
    by_cases hi8 : i = 8
    · subst hi8
      rw [show n.flags.getLsbD 8 = true from h]
      rfl
    · have hbit : (0x100 : BitVec 10).getLsbD i = false := by interval_cases i <;> first | rfl | exact absurd rfl hi8
      rw [hbit, Bool.or_false]
  · rw [NoticeUnit.claim_of_clear (Bool.eq_false_iff.mpr h)]
    rfl

/-- The part of the state that the sorting of a cell is about. -/
structure SameCells (a t : State) : Prop where
  requests : t.cells.requests = a.cells.requests
  forward : t.cells.forward = a.cells.forward
  crcErrors : t.cells.crcErrors = a.cells.crcErrors
  dropped : t.cells.dropped = a.cells.dropped
  flags : t.notice.flags = a.notice.flags

theorem SameCells.of_eq {a t : State} (hcells : t.cells = a.cells) (hnotice : t.notice = a.notice) : SameCells a t := by
  constructor
  case flags => rw [hnotice]
  all_goals rw [hcells]

theorem SameCells.trans {a b c : State} (h : SameCells a b) (g : SameCells b c) : SameCells a c :=
  ⟨g.requests.trans h.requests, g.forward.trans h.forward, g.crcErrors.trans h.crcErrors, g.dropped.trans h.dropped,
    g.flags.trans h.flags⟩

section
variable {s : State} {c : Cell}

theorem dropCell_sameCells (s : State) : SameCells
    { s with
      cells := { s.cells with dropped := min 65535 (s.cells.dropped + 1) }
      notice := { s.notice with flags := s.notice.flags ||| 0x100 } } s.dropCell :=
  ⟨rfl, rfl, rfl, rfl, claim_cellLoss_flags _⟩

theorem arriveCell_of_idle (h : Cell.destination c = 0) : s.arriveCell c = s := if_pos h

theorem arriveCell_of_failed (h : Cell.destination c ≠ 0) (hcheck : Cell.checks c = false) : s.arriveCell c =
    (s.setCells { s.cells with crcErrors := min 65535 (s.cells.crcErrors + 1) }).claim .cellLoss := by
  rw [State.arriveCell, if_neg h, hcheck]
  rfl

theorem arriveCell_of_own (h : Cell.destination c = s.address) (hcheck : Cell.checks c = true) :
    s.arriveCell c = if 0x80 ≤ Cell.kind c then s else s.joinRequests c := by
  rw [State.arriveCell, if_neg (by rw [h]; exact address_ne_zero s), hcheck, if_pos h]
  rfl

theorem arriveCell_of_ident (h : Cell.destination c = 0xFF) (hcheck : Cell.checks c = true) (hkind : Cell.kind c = 0x01) :
    s.arriveCell c = s.joinBoth c := by
  rw [State.arriveCell, if_neg (by rw [h]; decide), hcheck, if_neg (by decide),
    if_neg (by rw [h]; exact (address_ne_broadcast s).symm), if_pos ⟨h, hkind⟩]

theorem arriveCell_of_other (h0 : Cell.destination c ≠ 0) (h : Cell.destination c ≠ s.address)
    (hident : ¬(Cell.destination c = 0xFF ∧ Cell.kind c = 0x01)) (hcheck : Cell.checks c = true) :
    s.arriveCell c = s.joinForward c := by
  rw [State.arriveCell, if_neg h0, hcheck, if_neg h, if_neg hident]
  rfl

theorem joinRequests_of_room (h : s.cells.requests.length < 4) :
    s.joinRequests c = s.setCells { s.cells with requests := s.cells.requests ++ [c] } := if_pos h

theorem joinRequests_of_full (h : 4 ≤ s.cells.requests.length) : s.joinRequests c = s.dropCell := if_neg (not_lt.mpr h)

theorem joinForward_of_room (h : s.cells.forward.length < 4) :
    s.joinForward c = s.setCells { s.cells with forward := s.cells.forward ++ [c] } := if_pos h

theorem joinForward_of_full (h : 4 ≤ s.cells.forward.length) : s.joinForward c = s.dropCell := if_neg (not_lt.mpr h)

theorem joinBoth_of_room (hrequests : s.cells.requests.length < 4) (hforward : s.cells.forward.length < 4) : s.joinBoth c =
    s.setCells { s.cells with requests := s.cells.requests ++ [c], forward := s.cells.forward ++ [c] } :=
  if_pos ⟨hrequests, hforward⟩

theorem joinBoth_of_full (h : 4 ≤ s.cells.requests.length ∨ 4 ≤ s.cells.forward.length) : s.joinBoth c = s.dropCell :=
  if_neg fun hroom => h.elim (not_le.mpr hroom.1) (not_le.mpr hroom.2)

/-- How a cell is sorted depends on the link address, the Cell Handler and the Notice Unit alone. -/
theorem arriveCell_congr {v : State} (hstraps : v.straps = s.straps) (hcells : v.cells = s.cells) (hnotice : v.notice = s.notice) :
    (v.arriveCell c).cells = (s.arriveCell c).cells ∧ (v.arriveCell c).notice = (s.arriveCell c).notice := by
  have haddress : v.address = s.address := congrArg linkAddress hstraps
  unfold State.arriveCell State.joinRequests State.joinBoth State.joinForward State.dropCell
  rw [haddress, hcells]
  split_ifs <;> simp [State.claim, hcells, hnotice]
end

/-! ### The sent report and the arriving cell of one frame (R169, R175) -/

/-- The state once the report of a forwarded cell, where that is due, has removed the head of the forward queue. -/
def State.reported (s : State) (due : Option CellSource) : State :=
  if due = some .forward then s.setCells { s.cells with forward := s.cells.forward.drop 1 } else s

section
variable (s : State) (due : Option CellSource)

@[simp] theorem reported_requests : (s.reported due).cells.requests = s.cells.requests := by
  unfold State.reported; split <;> rfl

@[simp] theorem reported_forward : (s.reported due).cells.forward =
    if due = some .forward then s.cells.forward.drop 1 else s.cells.forward := by
  unfold State.reported; split <;> rfl

@[simp] theorem reported_crcErrors : (s.reported due).cells.crcErrors = s.cells.crcErrors := by
  unfold State.reported; split <;> rfl

@[simp] theorem reported_dropped : (s.reported due).cells.dropped = s.cells.dropped := by
  unfold State.reported; split <;> rfl

@[simp] theorem reported_notice : (s.reported due).notice = s.notice := by
  unfold State.reported; split <;> rfl

@[simp] theorem reported_straps : (s.reported due).straps = s.straps := by
  unfold State.reported; split <;> rfl

theorem reported_address : (s.reported due).address = s.address := congrArg linkAddress (reported_straps s due)
end

theorem SameCells.reported {a t : State} (h : SameCells a t) (due : Option CellSource) :
    SameCells (a.reported due) (t.reported due) := by
  constructor
  case requests => simpa using h.requests
  case forward => rw [reported_forward, reported_forward, h.forward]
  case crcErrors => simpa using h.crcErrors
  case dropped => simpa using h.dropped
  case flags => simpa using h.flags

theorem sentReport_sameCells (s : State) (source : CellSource) : SameCells (s.reported (some source)) (s.sentReport source) := by
  constructor
  case requests => cases source <;> rfl
  case forward => cases source <;> rfl
  case crcErrors => cases source <;> rfl
  case dropped => cases source <;> rfl
  case flags => cases source <;> rfl

/-- A cell that comes while the head of a full forward queue is removed: R175 leaves the order open. -/
def State.Clash (s : State) (c : Cell) : Prop :=
  s.reportDue = some .forward ∧ 4 ≤ s.cells.forward.length ∧ s.forwards c = true

section
variable {s : State} {c : Cell}

theorem weighed_sent_cells (s : State) (x y : Samples) : ((s.weighed x).sendFrame y).straps = s.straps ∧
    ((s.weighed x).sendFrame y).cells = s.cells ∧ ((s.weighed x).sendFrame y).notice = s.notice := by
  rw [weighed_eq]
  simp

theorem passFrame_of_cell (hlength : s.rx.words.length = 16) (hvalid : s.rx.header = .valid) (x : Samples) : s.passFrame x =
    ((s.weighed x).sendFrame ((s.weighed x).outSamples (s.delay.headD silence))).reportAndArrive s.reportDue
      (some (cellOfWords s.rx.words)) := by
  have hdue : (s.weighed x).reportDue = s.reportDue := by rw [weighed_eq]; rfl
  rw [passFrame_eq, hdue, if_pos ⟨hlength, hvalid⟩]

/-- Outside the clash the cell is sorted first, and the report is taken after it. -/
theorem reportAndArrive_sameCells {due : Option CellSource}
    (h : ¬(due = some .forward ∧ 4 ≤ s.cells.forward.length ∧ s.forwards c = true)) :
    SameCells ((s.arriveCell c).reported due) (s.reportAndArrive due (some c)) := by
  cases due with
  | none => exact .of_eq rfl rfl
  | some source =>
    have hclash : ¬(source = .forward ∧ queueLimit ≤ s.cells.forward.length ∧ s.forwards c = true) :=
      fun hc => h ⟨congrArg some hc.1, hc.2⟩
    rw [State.reportAndArrive, if_neg hclash]
    exact sentReport_sameCells _ _

/-- In the clash a free value gives the order. -/
theorem reportAndArrive_clash (h : 4 ≤ s.cells.forward.length ∧ s.forwards c = true) :
    SameCells ((s.arriveCell c).reported (some .forward)) (s.reportAndArrive (some .forward) (some c)) ∨
    SameCells ((s.reported (some .forward)).arriveCell c) (s.reportAndArrive (some .forward) (some c)) := by
  rw [State.reportAndArrive, if_pos ⟨rfl, h⟩]
  dsimp only
  split
  · have hdraw := arriveCell_congr (s := s) (v := s.draw) (c := c) rfl rfl rfl
    exact .inl (((SameCells.of_eq hdraw.1 hdraw.2).reported _).trans (sentReport_sameCells _ _))
  · have hreport := arriveCell_congr (s := s.reported (some .forward)) (v := s.draw.sentReport .forward) (c := c) rfl rfl rfl
    exact .inr (.of_eq hreport.1 hreport.2)

theorem forwards_congr {v : State} (hstraps : v.straps = s.straps) : v.forwards c = s.forwards c := by
  have haddress : v.address = s.address := congrArg linkAddress hstraps
  rw [State.forwards, State.forwards, haddress]

/-- A frame that completes a superframe of valid header, outside the clash. -/
theorem passFrame_sameCells (hlength : s.rx.words.length = 16) (hvalid : s.rx.header = .valid)
    (h : ¬s.Clash (cellOfWords s.rx.words)) (x : Samples) :
    SameCells ((s.arriveCell (cellOfWords s.rx.words)).reported s.reportDue) (s.passFrame x) := by
  obtain ⟨hstraps, hcells, hnotice⟩ := weighed_sent_cells s x ((s.weighed x).outSamples (s.delay.headD silence))
  obtain ⟨harrive, harrive'⟩ := arriveCell_congr (c := cellOfWords s.rx.words) hstraps hcells hnotice
  rw [passFrame_of_cell hlength hvalid]
  refine ((SameCells.of_eq harrive harrive').reported _).trans (reportAndArrive_sameCells fun hc => h ?_)
  rw [hcells, forwards_congr hstraps] at hc
  exact hc

/-- A frame that completes a superframe of valid header, in the clash. -/
theorem passFrame_clash (hlength : s.rx.words.length = 16) (hvalid : s.rx.header = .valid)
    (h : s.Clash (cellOfWords s.rx.words)) (x : Samples) :
    SameCells ((s.arriveCell (cellOfWords s.rx.words)).reported (some .forward)) (s.passFrame x) ∨
    SameCells ((s.reported (some .forward)).arriveCell (cellOfWords s.rx.words)) (s.passFrame x) := by
  obtain ⟨hstraps, hcells, hnotice⟩ := weighed_sent_cells s x ((s.weighed x).outSamples (s.delay.headD silence))
  obtain ⟨harrive, harrive'⟩ := arriveCell_congr (c := cellOfWords s.rx.words) hstraps hcells hnotice
  obtain ⟨hdue, hfull, hforwards⟩ := h
  rw [passFrame_of_cell hlength hvalid, hdue]
  have hreported : SameCells (s.reported (some .forward))
      (((s.weighed x).sendFrame ((s.weighed x).outSamples (s.delay.headD silence))).reported (some .forward)) :=
    (SameCells.of_eq hcells hnotice).reported _
  have hreportedCells : (((s.weighed x).sendFrame ((s.weighed x).outSamples (s.delay.headD silence))).reported (some .forward)).cells =
      (s.reported (some .forward)).cells := by
    simp only [State.reported, if_true, State.setCells_cells, hcells]
  obtain ⟨hfirst, hfirst'⟩ := arriveCell_congr (c := cellOfWords s.rx.words)
    (s := s.reported (some .forward)) (by rw [reported_straps, reported_straps, hstraps]) hreportedCells
    (by rw [reported_notice, reported_notice, hnotice])
  exact (reportAndArrive_clash (by rw [hcells, forwards_congr hstraps]; exact ⟨hfull, hforwards⟩)).imp
    (((SameCells.of_eq harrive harrive').reported _).trans ·) ((SameCells.of_eq hfirst hfirst').trans ·)
end

end Sys2Proof.Machine
end

/-! ## Arriving cells: the frame that completes a superframe (R15, R166 to R168, R175) -/

section
namespace Sys2Proof.Machine

section
variable {s : State} {f : Frame} {c : Cell}

theorem frameArrives_of_last (h : s.followsTheLink) (hlength : s.rx.words.length = 15) : s.frameArrives f =
    (s.setRx (s.rx.heard.setWords (s.rx.words ++ [f.service]))).passFrame f.samples := by
  rw [frameArrives_following h, heldFrame_word (s := s.setRx s.rx.heard) (by exact hlength.trans_ne (by decide))
    (by exact hlength.trans_ne (by decide))]
  rfl

/-- The cell is sorted as the state before the frame sorts it; only in the clash the report may come first. -/
theorem frameArrives_sameCells (h : s.followsTheLink) (hlength : s.rx.words.length = 15) (hvalid : s.rx.header = .valid)
    (hc : c = cellOfWords (s.rx.words ++ [f.service])) :
    (¬s.Clash c → SameCells ((s.arriveCell c).reported s.reportDue) (s.frameArrives f)) ∧
    (s.Clash c → SameCells ((s.arriveCell c).reported (some .forward)) (s.frameArrives f) ∨
      SameCells ((s.reported (some .forward)).arriveCell c) (s.frameArrives f)) := by
  have hfull : (s.rx.words ++ [f.service]).length = 16 := by rw [List.length_append, hlength, List.length_singleton]
  obtain ⟨hcells, hnotice⟩ := arriveCell_congr (c := c) (s := s)
    (v := s.setRx (s.rx.heard.setWords (s.rx.words ++ [f.service]))) rfl rfl rfl
  obtain ⟨hcells', hnotice'⟩ := arriveCell_congr (c := c) (s := s.reported (some .forward))
    (v := (s.setRx (s.rx.heard.setWords (s.rx.words ++ [f.service]))).reported (some .forward)) rfl rfl rfl
  rw [frameArrives_of_last h hlength]
  refine ⟨fun hclash => ?_, fun hclash => ?_⟩
  · refine ((SameCells.of_eq hcells hnotice).reported _).trans ?_
    rw [hc] at hclash ⊢
    exact passFrame_sameCells (s := s.setRx (s.rx.heard.setWords (s.rx.words ++ [f.service]))) hfull hvalid hclash f.samples
  · refine Or.imp (((SameCells.of_eq hcells hnotice).reported _).trans ·) ((SameCells.of_eq hcells' hnotice').trans ·) ?_
    rw [hc] at hclash ⊢
    exact passFrame_clash (s := s.setRx (s.rx.heard.setWords (s.rx.words ++ [f.service]))) hfull hvalid hclash f.samples

theorem not_clash_of_room (h : s.cells.forward.length < 4) : ¬s.Clash c := fun hc => absurd hc.2.1 (not_le.mpr h)

theorem not_clash_of_not_due (h : s.reportDue ≠ some .forward) : ¬s.Clash c := fun hc => h hc.1

theorem not_clash_of_not_forwards (h : Cell.destination c = 0 ∨ Cell.checks c = false ∨ Cell.destination c = s.address) :
    ¬s.Clash c := by
  rintro ⟨-, -, hf⟩
  rw [State.forwards, Bool.and_eq_true, Bool.and_eq_true, bne_iff_ne, bne_iff_ne] at hf
  rcases h with h | h | h
  · exact hf.1.1 h
  · exact absurd (hf.1.2.symm.trans h) (by decide)
  · exact hf.2 h

theorem clash_of_forwards (hdue : s.reportDue = some .forward) (hfull : 4 ≤ s.cells.forward.length) (h0 : Cell.destination c ≠ 0)
    (hcheck : Cell.checks c = true) (haddress : Cell.destination c ≠ s.address) : s.Clash c := by
  refine ⟨hdue, hfull, ?_⟩
  rw [State.forwards, Bool.and_eq_true, Bool.and_eq_true, bne_iff_ne, bne_iff_ne]
  exact ⟨⟨h0, hcheck⟩, haddress⟩

theorem drop_append_singleton {l : List Cell} (h : l.length = 4) : l.drop 1 ++ [c] = (l ++ [c]).drop 1 :=
  (List.drop_append_of_le_length (by omega)).symm
end

/-- A cell dropped for a full queue: counted and claimed, the queues as they are but for the report. -/
structure CellDropped (s t : State) : Prop where
  requests : t.cells.requests = s.cells.requests
  forward : t.cells.forward = if s.reportDue = some .forward then s.cells.forward.drop 1 else s.cells.forward
  crcErrors : t.cells.crcErrors = s.cells.crcErrors
  dropped : t.cells.dropped = min 65535 (s.cells.dropped + 1)
  flags : t.notice.flags = s.notice.flags ||| 0x100

/-- A cell joined to the queues. -/
structure CellJoined (s t : State) (requests forward : List Cell) : Prop where
  requests : t.cells.requests = requests
  forward : t.cells.forward = if s.reportDue = some .forward then forward.drop 1 else forward
  crcErrors : t.cells.crcErrors = s.cells.crcErrors
  dropped : t.cells.dropped = s.cells.dropped
  flags : t.notice.flags = s.notice.flags

section
variable {s t : State} {c : Cell}

theorem SameCells.cellDropped (h : SameCells (s.dropCell.reported s.reportDue) t) : CellDropped s t where
  requests := by rw [h.requests, reported_requests, (dropCell_sameCells s).requests]
  forward := by rw [h.forward, reported_forward, (dropCell_sameCells s).forward]
  crcErrors := by rw [h.crcErrors, reported_crcErrors, (dropCell_sameCells s).crcErrors]
  dropped := by rw [h.dropped, reported_dropped, (dropCell_sameCells s).dropped]
  flags := by rw [h.flags, reported_notice, (dropCell_sameCells s).flags]

theorem SameCells.cellDropped_of_reported (hdue : s.reportDue = some .forward)
    (h : SameCells (s.reported (some .forward)).dropCell t) : CellDropped s t where
  requests := by rw [h.requests, (dropCell_sameCells _).requests]; exact reported_requests s _
  forward := by rw [h.forward, (dropCell_sameCells _).forward, hdue]; exact reported_forward s _
  crcErrors := by rw [h.crcErrors, (dropCell_sameCells _).crcErrors]; exact reported_crcErrors s _
  dropped := by rw [h.dropped, (dropCell_sameCells _).dropped]; simp only [reported_dropped]
  flags := by rw [h.flags, (dropCell_sameCells _).flags]; simp only [reported_notice]

theorem SameCells.cellJoined {requests forward : List Cell}
    (h : SameCells ((s.setCells { s.cells with requests := requests, forward := forward }).reported s.reportDue) t) :
    CellJoined s t requests forward where
  requests := by rw [h.requests, reported_requests]; rfl
  forward := by rw [h.forward, reported_forward]; rfl
  crcErrors := by rw [h.crcErrors, reported_crcErrors]; rfl
  dropped := by rw [h.dropped, reported_dropped]; rfl
  flags := by rw [h.flags, reported_notice]; rfl

/-- A cell that joins the forward queue after the report has removed its head. -/
theorem SameCells.cellJoined_of_reported {requests : List Cell} (hdue : s.reportDue = some .forward)
    (hfull : s.cells.forward.length = 4) (h : SameCells ((s.reported (some .forward)).setCells
      { (s.reported (some .forward)).cells with
        requests := requests, forward := (s.reported (some .forward)).cells.forward ++ [c] }) t) :
    CellJoined s t requests (s.cells.forward ++ [c]) where
  requests := h.requests
  forward := by
    refine h.forward.trans ?_
    rw [hdue, if_pos rfl, ← drop_append_singleton hfull]
    rfl
  crcErrors := h.crcErrors.trans (reported_crcErrors s _)
  dropped := h.dropped.trans (reported_dropped s _)
  flags := h.flags.trans (congrArg NoticeUnit.flags (reported_notice s _))

theorem joinBoth_crcErrors (s : State) (c : Cell) : (s.joinBoth c).cells.crcErrors = s.cells.crcErrors := by
  unfold State.joinBoth; split <;> rfl

theorem joinForward_crcErrors (s : State) (c : Cell) : (s.joinForward c).cells.crcErrors = s.cells.crcErrors := by
  unfold State.joinForward; split <;> rfl

theorem joinForward_requests (s : State) (c : Cell) : (s.joinForward c).cells.requests = s.cells.requests := by
  unfold State.joinForward; split <;> rfl

/-- What holds in each order holds after the frame. -/
theorem of_orders {P : Prop} (hplain : ¬s.Clash c → SameCells ((s.arriveCell c).reported s.reportDue) t)
    (hclash : s.Clash c → SameCells ((s.arriveCell c).reported (some .forward)) t ∨
      SameCells ((s.reported (some .forward)).arriveCell c) t)
    (hsorted : SameCells ((s.arriveCell c).reported s.reportDue) t → P)
    (hreported : s.Clash c → SameCells ((s.reported (some .forward)).arriveCell c) t → P) : P := by
  by_cases hc : s.Clash c
  · rcases hclash hc with h | h
    · exact hsorted (by rw [hc.1]; exact h)
    · exact hreported hc h
  · exact hsorted (hplain hc)
end

/-- Settles O46, by the branches of the sorting. -/
theorem arrivingCellsAreSorted : Obligations.ArrivingCellsAreSorted := by
  refine ⟨fun words hlength => ⟨?_, fun k i hlow hhigh hi => getD_cellOfWords hlength hlow hhigh hi⟩,
    fun s f kept hfollows hlength hheader hkept => ⟨_, rfl, ?_⟩,
    fun s f c kept joined dropped hfollows hlength hvalid hc hkept hjoined hdropped => ⟨_, rfl, ?_⟩⟩
  · rw [cellOfWords, length_flatMap_bytes32, List.length_drop, hlength]
  · have hw : ¬((s.setRx (s.rx.heard.setWords (s.rx.words ++ [f.service]))).rx.words.length = 16 ∧
        (s.setRx (s.rx.heard.setWords (s.rx.words ++ [f.service]))).rx.header = .valid) := fun h => hheader h.2
    have hdue : s.reportDue = some .forward ↔ s.tx.sent = 15 ∧ s.tx.source = .forward := by
      unfold State.reportDue
      split <;> simp_all
    obtain ⟨hcells, hnotice⟩ := passFrame_cells_notice hw f.samples
    rw [frameArrives_of_last hfollows hlength, hcells, hnotice, hkept]
    refine ⟨rfl, ?_, rfl, rfl, rfl⟩
    simp only [hdue]
    rfl
  · obtain ⟨hplain, hclash⟩ := frameArrives_sameCells hfollows hlength hvalid hc
    refine ⟨fun h => ?_, fun h0 hcheck => ?_, fun haddress hcheck hkind => ?_, fun hbroadcast hcheck hkind => ?_,
      fun h0 haddress hident hcheck => ?_⟩
    · have hsame : s.arriveCell c = s := by
        rcases h with h | ⟨hcheck, haddress, hkind⟩
        · exact arriveCell_of_idle h
        · rw [arriveCell_of_own haddress hcheck, if_pos hkind]
      have ht := hplain (not_clash_of_not_forwards (h.imp_right fun h => .inr h.2.1))
      rw [hsame] at ht
      exact ⟨by simpa using ht.requests, by simpa using ht.crcErrors, by simpa using ht.dropped,
        by rw [ht.forward, reported_forward, hkept], by simpa using ht.flags⟩
    · have ht := hplain (not_clash_of_not_forwards (.inr (.inl hcheck)))
      rw [arriveCell_of_failed h0 hcheck] at ht
      refine ⟨by simpa using ht.requests, by simpa using ht.crcErrors, by simpa using ht.dropped, ?_,
        by rw [ht.forward, reported_forward, hkept]; rfl⟩
      rw [ht.flags, reported_notice]
      exact claim_cellLoss_flags s.notice
    · have ht := hplain (not_clash_of_not_forwards (.inr (.inr haddress)))
      rw [arriveCell_of_own haddress hcheck, if_neg (not_le.mpr hkind)] at ht
      by_cases hroom : s.cells.requests.length < 4
      · rw [joinRequests_of_room hroom] at ht
        have h := ht.cellJoined
        exact ⟨h.crcErrors, h.forward.trans hkept.symm, fun _ => ⟨h.requests, h.dropped, h.flags⟩,
          fun hfull => absurd hroom (not_lt.mpr hfull)⟩
      · rw [joinRequests_of_full (not_lt.mp hroom)] at ht
        have h := ht.cellDropped
        exact ⟨h.crcErrors, h.forward.trans hkept.symm, fun hlt => absurd hlt hroom, fun _ => ⟨h.requests, h.dropped, h.flags⟩⟩
    · have harrive : s.arriveCell c = s.joinBoth c := arriveCell_of_ident hbroadcast hcheck hkind
      have harrive' : (s.reported (some .forward)).arriveCell c = (s.reported (some .forward)).joinBoth c :=
        arriveCell_of_ident hbroadcast hcheck hkind
      have hdrop (h : CellDropped s (s.frameArrives f)) :
          (s.frameArrives f).cells.requests = s.cells.requests ∧ dropped (s.frameArrives f) :=
        ⟨h.requests, (hdropped _).mpr ⟨h.forward.trans hkept.symm, h.dropped, h.flags⟩⟩
      have hjoin (h : CellJoined s (s.frameArrives f) (s.cells.requests ++ [c]) (s.cells.forward ++ [c])) :
          (s.frameArrives f).cells.requests = s.cells.requests ++ [c] ∧ joined (s.frameArrives f) :=
        ⟨h.requests, (hjoined _).mpr ⟨h.forward, h.dropped, h.flags⟩⟩
      refine ⟨of_orders hplain hclash (fun h => by rw [h.crcErrors, reported_crcErrors, harrive, joinBoth_crcErrors])
          (fun _ h => by rw [h.crcErrors, harrive', joinBoth_crcErrors, reported_crcErrors]),
        fun hroom hroom' => hjoin ?_, fun hfull => hdrop ?_, fun hfull hdue => hdrop ?_, fun hroom hfull hdue => ?_⟩
      · have ht := hplain (not_clash_of_room hroom')
        rw [harrive, joinBoth_of_room hroom hroom'] at ht
        exact ht.cellJoined
      · refine of_orders hplain hclash (fun h => ?_) fun hc h => ?_
        · rw [harrive, joinBoth_of_full (.inl hfull)] at h
          exact h.cellDropped
        · rw [harrive', joinBoth_of_full (.inl (by rw [reported_requests]; exact hfull))] at h
          exact h.cellDropped_of_reported hc.1
      · have ht := hplain (not_clash_of_not_due hdue)
        rw [harrive, joinBoth_of_full (.inr hfull)] at ht
        exact ht.cellDropped
      · rcases hclash (clash_of_forwards hdue hfull.ge (by rw [hbroadcast]; decide) hcheck
          (by rw [hbroadcast]; exact (address_ne_broadcast s).symm)) with ht | ht
        · rw [harrive, joinBoth_of_full (.inr hfull.ge), ← hdue] at ht
          exact .inr (hdrop ht.cellDropped)
        · rw [harrive', joinBoth_of_room (by rw [reported_requests]; exact hroom)
            (by rw [reported_forward, if_pos rfl, List.length_drop, hfull]; decide), reported_requests] at ht
          exact .inl (hjoin (ht.cellJoined_of_reported hdue hfull))
    · have harrive : s.arriveCell c = s.joinForward c := arriveCell_of_other h0 haddress hident hcheck
      have harrive' : (s.reported (some .forward)).arriveCell c = (s.reported (some .forward)).joinForward c :=
        arriveCell_of_other h0 (by rw [reported_address]; exact haddress) hident hcheck
      have hdrop (h : CellDropped s (s.frameArrives f)) : dropped (s.frameArrives f) :=
        (hdropped _).mpr ⟨h.forward.trans hkept.symm, h.dropped, h.flags⟩
      have hjoin (h : CellJoined s (s.frameArrives f) s.cells.requests (s.cells.forward ++ [c])) : joined (s.frameArrives f) :=
        (hjoined _).mpr ⟨h.forward, h.dropped, h.flags⟩
      refine ⟨of_orders hplain hclash (fun h => by rw [h.requests, reported_requests, harrive, joinForward_requests])
          (fun _ h => by rw [h.requests, harrive', joinForward_requests, reported_requests]),
        of_orders hplain hclash (fun h => by rw [h.crcErrors, reported_crcErrors, harrive, joinForward_crcErrors])
          (fun _ h => by rw [h.crcErrors, harrive', joinForward_crcErrors, reported_crcErrors]),
        fun hroom => hjoin ?_, fun hfull hdue => hdrop ?_, fun hfull hdue => ?_⟩
      · have ht := hplain (not_clash_of_room hroom)
        rw [harrive, joinForward_of_room hroom] at ht
        exact ht.cellJoined
      · have ht := hplain (not_clash_of_not_due hdue)
        rw [harrive, joinForward_of_full hfull] at ht
        exact ht.cellDropped
      · rcases hclash (clash_of_forwards hdue hfull.ge h0 hcheck haddress) with ht | ht
        · rw [harrive, joinForward_of_full hfull.ge, ← hdue] at ht
          exact .inr (hdrop ht.cellDropped)
        · rw [harrive', joinForward_of_room (by rw [reported_forward, if_pos rfl, List.length_drop, hfull]; decide)] at ht
          exact .inl (hjoin (SameCells.cellJoined_of_reported hdue hfull
            ⟨ht.requests.trans (reported_requests s _), ht.forward, ht.crcErrors, ht.dropped, ht.flags⟩))

end Sys2Proof.Machine
end

/-! ## The frames that mark no block boundary (R26, R47, R152) -/

section
namespace Sys2Proof.Machine

/-! ### What one frame adds (R26, R47) -/

/-- The weight of a slot in a programme's block sum, in hundredths (R26). -/
def SlotEntry.hundredths (e : SlotEntry) (p : Prog) : Nat :=
  match e with
  | .member q w | .measure q w => if q = p then (match w with | .full => 100 | .side => 141 | .none => 0) else 0
  | .pass | .mute => 0

theorem WeightClass.slotPower_eq (w : WeightClass) (x : Sample) :
    (match w with | .full => weightedSquare 100 x | .side => weightedSquare 141 x | .none => 0) =
      (match w with | .full => 100 | .side => 141 | .none => 0) * x.toInt.natAbs ^ 2 := by
  cases w
  · rfl
  · rfl
  · exact (Nat.zero_mul _).symm

theorem slotPower_eq (e : SlotEntry) (p : Prog) (x : Sample) : slotPower e p x = e.hundredths p * x.toInt.natAbs ^ 2 := by
  cases e with
  | pass => exact (Nat.zero_mul _).symm
  | mute => exact (Nat.zero_mul _).symm
  | member q w | measure q w =>
    simp only [slotPower, SlotEntry.hundredths]
    split
    · exact WeightClass.slotPower_eq w x
    · exact (Nat.zero_mul _).symm

theorem framePower_eq (s : State) (p : Prog) : s.framePower p =
    ∑ i : SlotNo, s.slots[i].hundredths p * (Config.weighting (s.filterInput.map fun f => f[i])).toInt.natAbs ^ 2 := by
  rw [State.framePower, allSlots, Fin.sum_univ_def]
  simp only [slotPower_eq, State.filtered]

section
variable {s t : State}

theorem framePower_congr (hslots : t.slots = s.slots) (hfilter : t.filterInput = s.filterInput) (p : Prog) :
    t.framePower p = s.framePower p := by
  rw [framePower_eq, framePower_eq, hslots, hfilter]

theorem largestMagnitude_congr (hslots : t.slots = s.slots) (p : Prog) (frames : List Samples) :
    t.largestMagnitude p frames = s.largestMagnitude p frames := by
  simp only [State.largestMagnitude, State.gainedSlots, hslots]

theorem activeProfile_congr (hprogs : t.progs = s.progs) (hprofiles : t.profiles = s.profiles) (p : Prog) :
    t.activeProfile p = s.activeProfile p := by
  simp only [State.activeProfile, hprogs, hprofiles]

/-! ### A frame that passes, programme by programme (R47, R152) -/

theorem accumulate_meter (s : State) (p : Prog) : s.accumulate.meters[p] =
    if s.opened p then { s.meters[p] with sum := s.meters[p].sum + s.framePower p, frames := s.meters[p].frames + 1 }
    else s.meters[p] := getElem_ofFn_prog _ p

theorem frameCheck_gains (s : State) (x : Samples) (p : Prog) : (s.frameCheck x).gains[p] =
    if s.opened p then s.gains[p].raiseTo (s.largestMagnitude p [x]) (s.activeProfile p).ceiling else s.gains[p] :=
  getElem_ofFn_prog _ p

theorem passFrame_framePower (s : State) (x : Samples) (p : Prog) :
    (s.passFrame x).framePower p = (s.carryFrame x).framePower p :=
  framePower_congr (by simp) (passFrame_filterInput s x) p

/-- A frame of RUNNING is added up and the frame that leaves is checked, for every programme that is not UNUSED. -/
theorem passFrame_of_opened {p : Prog} (hlock : s.rx.lock = .running) (hopen : s.progs[p].state ≠ .unused) (x : Samples) :
    (s.passFrame x).meters[p] =
      { s.meters[p] with sum := s.meters[p].sum + (s.passFrame x).framePower p, frames := s.meters[p].frames + 1 } ∧
    (s.passFrame x).gains[p] =
      s.gains[p].raiseTo (s.largestMagnitude p [s.delay.headD silence]) (s.activeProfile p).ceiling := by
  have hopened : (s.carryFrame x).opened p = true := (opened_iff s p).mpr hopen
  have hopened' : (s.carryFrame x).accumulate.opened p = true := hopened
  rw [passFrame_meters, passFrame_gains, weighed_of_running hlock, passFrame_framePower, if_pos hlock, accumulate_meter,
    if_pos hopened, frameCheck_gains, if_pos hopened']
  exact ⟨rfl, rfl⟩

/-- A frame of SETTLING, and a programme that is UNUSED: nothing is added or checked. -/
theorem passFrame_of_closed {p : Prog} (h : s.rx.lock ≠ .running ∨ s.progs[p].state = .unused) (x : Samples) :
    (s.passFrame x).meters[p] = s.meters[p] ∧ (s.passFrame x).gains[p] = s.gains[p] := by
  rw [passFrame_meters, passFrame_gains]
  by_cases hlock : s.rx.lock = .running
  · have hclosed : ¬(s.carryFrame x).opened p = true := fun ho => (opened_iff s p).mp ho (h.resolve_left (not_not.mpr hlock))
    have hclosed' : ¬(s.carryFrame x).accumulate.opened p = true := hclosed
    rw [weighed_of_running hlock, if_pos hlock, accumulate_meter, if_neg hclosed, frameCheck_gains, if_neg hclosed']
    exact ⟨rfl, rfl⟩
  · rw [weighed_of_settling hlock, if_neg hlock]
    exact ⟨rfl, rfl⟩

/-! ### What an inbound frame can change beside a block boundary -/

/-- `s` with all of `t` that a frame can change where it marks no block boundary. -/
def State.withFrame (s t : State) : State :=
  { s with
    rx := t.rx, tx := t.tx, sent := t.sent, delay := t.delay, filterInput := t.filterInput, meters := t.meters
    gains := t.gains, cells := { t.cells with inHand := s.cells.inHand }
    notice := { s.notice with flags := t.notice.flags, state := t.notice.state }, fresh := t.fresh }

/-- The two states agree in all that a frame which marks no block boundary leaves. -/
def FrameOnly (s t : State) : Prop := t = s.withFrame t

namespace FrameOnly

theorem trans {u : State} (h : FrameOnly s t) (g : FrameOnly t u) : FrameOnly s u :=
  calc u = t.withFrame u := g
    _ = (s.withFrame t).withFrame u := congrArg (State.withFrame · u) h
    _ = s.withFrame u := rfl

theorem slots (h : FrameOnly s t) : t.slots = s.slots := by rw [h]; rfl
theorem progs (h : FrameOnly s t) : t.progs = s.progs := by rw [h]; rfl
theorem profiles (h : FrameOnly s t) : t.profiles = s.profiles := by rw [h]; rfl

theorem claimIf (s : State) (b : Bool) (k : Condition) : FrameOnly s (s.claimIf b k) :=
  congrArg (fun n => ({ s with notice := n } : State)) (claimIf_claimed s.notice b k).settings

theorem weighed (s : State) (x : Samples) : FrameOnly s (s.weighed x) := by
  unfold State.weighed
  split <;> rfl

theorem sendFrame (s : State) (x : Samples) : FrameOnly s (s.sendFrame x) := by
  unfold State.sendFrame
  split <;> rfl

theorem sentReport (s : State) (source : CellSource) : FrameOnly s (s.sentReport source) := by
  cases source <;> rfl

theorem dropCell (s : State) : FrameOnly s s.dropCell :=
  trans (t := s.setCells { s.cells with dropped := countUp s.cells.dropped }) rfl (claimIf _ true .cellLoss)

theorem arriveCell (s : State) (c : Cell) : FrameOnly s (s.arriveCell c) := by
  unfold State.arriveCell
  split
  case isTrue => rfl
  split
  case isTrue =>
    exact trans (t := s.setCells { s.cells with crcErrors := countUp s.cells.crcErrors }) rfl (claimIf _ true .cellLoss)
  split
  case isTrue =>
    split
    case isTrue => rfl
    unfold State.joinRequests
    split
    · rfl
    · exact dropCell s
  split
  case isTrue =>
    unfold State.joinBoth
    split
    · rfl
    · exact dropCell s
  unfold State.joinForward
  split
  · rfl
  · exact dropCell s

theorem reportAndArrive (s : State) (due : Option CellSource) (arrival : Option Cell) :
    FrameOnly s (s.reportAndArrive due arrival) := by
  cases due with
  | none =>
    cases arrival with
    | none => rfl
    | some c => exact arriveCell s c
  | some source =>
    cases arrival with
    | none => exact sentReport s source
    | some c =>
      have hdraw : FrameOnly s s.draw := rfl
      unfold State.reportAndArrive
      dsimp only
      split
      · split
        · exact (hdraw.trans (arriveCell _ c)).trans (sentReport _ source)
        · exact (hdraw.trans (sentReport _ source)).trans (arriveCell _ c)
      · exact (arriveCell s c).trans (sentReport _ source)

theorem passFrame (s : State) (x : Samples) : FrameOnly s (s.passFrame x) := by
  rw [passFrame_eq]
  exact ((weighed s x).trans (sendFrame _ _)).trans (reportAndArrive _ _ _)

theorem afterCheck (s : State) (r : Receiver) (errors : Nat) (adopted : Bool) :
    FrameOnly s (s.afterCheck r errors adopted) := by
  have hclaim := (claimIf_claimed s.notice adopted .timeSlip).settings
  cases adopted with
  | false => rfl
  | true =>
    exact congrArg (fun n => ({ s with rx := r, cells := { s.cells with headerErrors := errors }, notice := n } : State)) hclaim

end FrameOnly

theorem checkHeader_lost_or_afterCheck (s : State) (w0 : ServiceWord) (f : Frame) :
    ((s.setRx s.rx.heard).checkHeader w0 f.service).rx.lock = .search ∨
    ∃ r errors adopted, (s.setRx s.rx.heard).checkHeader w0 f.service = s.afterCheck r errors adopted ∧
      r.lock = s.rx.lock ∧ r.words.length = 2 := by
  by_cases hheader : s.rx.header = .error
  · exact .inr ⟨_, _, _, checkHeader_of_taken hheader, rfl, rfl⟩
  by_cases hvalid : headerValid w0 f.service = true
  · have hbranch := checkHeader_of_valid hheader hvalid
    by_cases htime : f.service = s.rx.time
    · exact .inr ⟨_, _, _, hbranch.trans (validHeader_of_expected htime), rfl, rfl⟩
    by_cases hslip : s.rx.slip.map (fun x => x + 16) = some f.service
    · exact .inr ⟨_, _, _, hbranch.trans (validHeader_of_adopted htime hslip), rfl, rfl⟩
    · exact .inr ⟨_, _, _, hbranch.trans (validHeader_of_candidate htime hslip), rfl, rfl⟩
  · rcases Nat.eq_zero_or_pos s.rx.errorRun with hrun | hrun
    · exact .inr ⟨_, _, _, checkHeader_of_first_error hheader hvalid hrun, rfl, rfl⟩
    · left
      rw [checkHeader_of_invalid hheader hvalid, (headerError_lockLost (s := s.setRx (s.rx.atCheck w0 f.service)) hrun).rx]
      rfl

end

/-! ### A superframe start that is no block boundary (R6, R10) -/

theorem onBlock_iff {t : LinkTime} : onBlock t = true ↔ t.toNat % 64 = 0 := by
  rw [onBlock, beq_iff_eq, ← BitVec.toNat_inj, BitVec.extractLsb'_toNat]
  rfl

section
variable {s : State} {e : LinkTime}

theorem startSuperframe_of_plain (he : s.rx.expected = some e) (hplain : e.toNat % 64 ≠ 0) (w : ServiceWord) :
    s.startSuperframe w = (s.setRx (s.rx.startSuperframe (settleLength s.straps) w)).startOutbound e := by
  have hblock : ¬onBlock e = true := mt onBlock_iff.mp hplain
  unfold State.startSuperframe
  simp only [he, Option.getD_some, hblock]
  rfl

theorem startSuperframe_lock_of_plain (he : s.rx.expected = some e) (hplain : e.toNat % 64 ≠ 0) (n : Nat) (w : ServiceWord) :
    (s.rx.startSuperframe n w).lock = s.rx.lock := by
  have hblock : onBlock e = false := Bool.eq_false_iff.mpr (mt onBlock_iff.mp hplain)
  simp [Receiver.startSuperframe, he, hblock]

/-! ### The state a frame finds when it passes -/

/-- The state is ready for a frame to pass: the receiver and the outbound superframe have moved on, and nothing of the frame's own
work is done. -/
structure ReadyToPass (s u : State) : Prop where
  only : FrameOnly s u
  lock : u.rx.lock = s.rx.lock
  delay : u.delay = s.delay
  filterInput : u.filterInput = s.filterInput
  meters : u.meters = s.meters
  gains : u.gains = s.gains

theorem readyToPass_start (he : s.rx.expected = some e) (hplain : e.toNat % 64 ≠ 0) (w : ServiceWord) :
    ReadyToPass s ((s.setRx s.rx.heard).startSuperframe w) := by
  rw [startSuperframe_of_plain (s := s.setRx s.rx.heard) he hplain]
  exact ⟨rfl, startSuperframe_lock_of_plain (by exact he) hplain _ w, rfl, rfl, rfl, rfl⟩

/-- While the link is followed a frame that marks no boundary passes through a state that is ready for it, unless its header ends the
lock. -/
theorem frameArrives_readyToPass (h : s.followsTheLink)
    (hplain : s.rx.words.length = 16 → ∃ e, s.rx.expected = some e ∧ e.toNat % 64 ≠ 0) (f : Frame) :
    (s.frameArrives f).rx.lock = .search ∨ ∃ u, ReadyToPass s u ∧ s.frameArrives f = u.passFrame f.samples := by
  rw [frameArrives_following h]
  refine heldFrame_cases (P := fun t => t.rx.lock = .search ∨ ∃ u, ReadyToPass s u ∧ t = u.passFrame f.samples)
    (fun hlength => ?_) (fun w0 _ hlost => .inl hlost) (fun w0 _ hheld => ?_)
    fun _ _ => .inr ⟨s.setRx (s.rx.heard.setWords (s.rx.words ++ [f.service])), ⟨rfl, rfl, rfl, rfl, rfl, rfl⟩, rfl⟩
  · obtain ⟨e, he, hne⟩ := hplain hlength
    exact .inr ⟨_, readyToPass_start he hne f.service, rfl⟩
  · obtain ⟨r, errors, adopted, hcheck, hlock, -⟩ := (checkHeader_lost_or_afterCheck s w0 f).resolve_left hheld
    rw [hcheck]
    exact .inr ⟨_, ⟨FrameOnly.afterCheck s r errors adopted, hlock, rfl, rfl, rfl, rfl⟩, rfl⟩

namespace ReadyToPass

variable {u : State} {p : Prog} (h : ReadyToPass s u)
include h

theorem passed_of_opened (hlock : s.rx.lock = .running) (hopen : s.progs[p].state ≠ .unused) (x : Samples) :
    (u.passFrame x).meters[p] =
      { s.meters[p] with sum := s.meters[p].sum + (u.passFrame x).framePower p, frames := s.meters[p].frames + 1 } ∧
    (u.passFrame x).gains[p] =
      s.gains[p].raiseTo (s.largestMagnitude p [s.delay.headD silence]) (s.activeProfile p).ceiling := by
  rw [← h.meters, ← h.gains, ← h.delay, ← largestMagnitude_congr h.only.slots, ← activeProfile_congr h.only.progs h.only.profiles]
  exact passFrame_of_opened (h.lock.trans hlock) (by rw [h.only.progs]; exact hopen) x

theorem passed_of_closed (hclosed : s.rx.lock = .settling ∨ s.progs[p].state = .unused) (x : Samples) :
    (u.passFrame x).meters[p] = s.meters[p] ∧ (u.passFrame x).gains[p] = s.gains[p] := by
  rw [← h.meters, ← h.gains]
  refine passFrame_of_closed (hclosed.imp (fun hlock => ?_) fun hp => by rw [h.only.progs]; exact hp) x
  rw [h.lock, hlock]
  decide
end ReadyToPass

/-! ### The other frames -/

theorem takeOwedTimeout_of_absent (h : s.rx.lock = .search ∨ s.rx.lock = .confirm) :
    (s.takeOwedTimeout.rx.lock = .search ∨ s.takeOwedTimeout.rx.lock = .confirm) ∧
    s.takeOwedTimeout.meters = s.meters ∧ s.takeOwedTimeout.gains = s.gains := by
  rcases h with h | h
  · rw [takeOwedTimeout_search h]
    exact ⟨.inl h, rfl, rfl⟩
  · unfold State.takeOwedTimeout State.takeTimeout
    rw [h]
    split
    · exact ⟨.inl rfl, rfl, rfl⟩
    · exact ⟨.inr h, rfl, rfl⟩

/-- In SEARCH and CONFIRM no frame is added up or checked. -/
theorem frameArrives_of_absent (h : s.rx.lock = .search ∨ s.rx.lock = .confirm) (f : Frame) :
    (s.frameArrives f).meters = s.meters ∧ (s.frameArrives f).gains = s.gains := by
  obtain ⟨hlock, hmeters, hgains⟩ := takeOwedTimeout_of_absent h
  rw [← hmeters, ← hgains]
  refine frameArrives_cases (P := fun t => t.meters = s.takeOwedTimeout.meters ∧ t.gains = s.takeOwedTimeout.gains)
    (fun _ => by simp) (fun _ => by simp) fun hheld => ?_
  rcases hheld with hheld | hheld <;> rw [hheld] at hlock <;> rcases hlock with hlock | hlock <;> cases hlock

/-- Sending a frame changes the outbound side alone; past the sixteenth word a free value is drawn. -/
theorem sendFrame_eq (s : State) (x : Samples) : s.sendFrame x = { s with
    sent := (s.sendFrame x).sent, tx := (s.sendFrame x).tx, fresh := if s.tx.sent < 16 then s.fresh else s.fresh + 1 } := by
  unfold State.sendFrame
  split <;> rfl

/-- The frame that passes and completes neither superframe. -/
theorem passFrame_quiet_eq (hsent : s.tx.sent ≠ 15) (hw : ¬(s.rx.words.length = 16 ∧ s.rx.header = .valid)) (x : Samples) :
    s.passFrame x = { s with
      tx := (s.passFrame x).tx, sent := (s.passFrame x).sent, delay := (s.passFrame x).delay
      filterInput := (s.passFrame x).filterInput, meters := (s.passFrame x).meters, gains := (s.passFrame x).gains
      fresh := if s.tx.sent < 16 then s.fresh else s.fresh + 1 } := by
  have hdue : (s.weighed x).reportDue = none := by
    rw [weighed_eq]
    exact reportDue_of_not_last hsent
  have hpass : s.passFrame x = (s.weighed x).sendFrame ((s.weighed x).outSamples (s.delay.headD silence)) := by
    rw [passFrame_eq, hdue, if_neg hw]
    rfl
  rw [hpass]
  generalize (s.weighed x).outSamples (s.delay.headD silence) = y
  rw [sendFrame_eq, weighed_eq]

end

/-- Settles O50. -/
theorem framesAddToTheBlocksAndAreChecked : Obligations.FramesAddToTheBlocksAndAreChecked := by
  refine ⟨fun s p hundredths hweights => ?_, fun s f hfollows hplain => ⟨_, rfl, ?_⟩, fun s f hfollows h1 h16 => ⟨_, rfl, ?_⟩,
    fun s f habsent => ⟨_, rfl, frameArrives_of_absent habsent f⟩⟩
  · rw [framePower_eq]
    exact Finset.sum_congr rfl fun i _ => by rw [hweights i]; rfl
  · refine (frameArrives_readyToPass hfollows hplain f).imp_right ?_
    rintro ⟨u, hready, hpass⟩
    rw [hpass]
    refine ⟨(congrArg Receiver.lock (by simp)).trans hready.lock, ?_, hready.only.trans (FrameOnly.passFrame u f.samples), fun p =>
      ⟨fun hlock hopen => hready.passed_of_opened hlock hopen f.samples, fun hclosed => hready.passed_of_closed hclosed f.samples⟩⟩
    rw [passFrame_filterInput, hready.filterInput]
  · have hpass : s.frameArrives f = (s.setRx (s.rx.heard.setWords (s.rx.words ++ [f.service]))).passFrame f.samples := by
      rw [frameArrives_following hfollows]
      exact heldFrame_word (s := s.setRx s.rx.heard) h1 h16
    obtain ⟨htx, -⟩ := passFrame_sent (s.setRx (s.rx.heard.setWords (s.rx.words ++ [f.service]))) f.samples
    rw [hpass]
    refine ⟨by simp; rfl, htx, fun hsent hw => ?_⟩
    have hquiet := passFrame_quiet_eq (s := s.setRx (s.rx.heard.setWords (s.rx.words ++ [f.service]))) hsent
      (fun h => hw ⟨by simpa using h.1, h.2⟩) f.samples
    have hrx : ((s.setRx (s.rx.heard.setWords (s.rx.words ++ [f.service]))).passFrame f.samples).rx =
        s.rx.heard.setWords (s.rx.words ++ [f.service]) := by simp
    rw [hrx]
    exact hquiet

end Sys2Proof.Machine
end

/-! ## The superframe start (R6, R10, R13) -/

section
namespace Sys2Proof.Machine

/-! ### The receiver at a superframe start (R6, R10) -/

/-- Whether a superframe start of link time `e` enters RUNNING, under a settle length of `n` (R10). -/
def Receiver.enters (r : Receiver) (n : Nat) (e : LinkTime) : Bool :=
  decide (r.lock = .settling ∧ e.toNat % 64 = 0 ∧ ∃ m, r.settle = some m ∧ n ≤ min 1024 (m + 1))

theorem enters_eq {r : Receiver} {n : Nat} (hn : 0 < n) (e : LinkTime) : (r.lock == .settling &&
    decide (n ≤ (r.settle.map fun m => min 1024 (m + 1)).getD 0) && onBlock e) = r.enters n e := by
  rw [Bool.eq_iff_iff, Bool.and_eq_true, Bool.and_eq_true, beq_iff_eq, decide_eq_true_eq, onBlock_iff, Receiver.enters,
    decide_eq_true_eq]
  cases r.settle with
  | none => simp [Nat.not_le.mpr hn]
  | some m => simp [and_comm, and_left_comm]

theorem startSuperframe_rx_eq {r : Receiver} {n : Nat} {e : LinkTime} (he : r.expected = some e) (hn : 0 < n) (w : ServiceWord) :
    r.startSuperframe n w = { r with
      words := [w], header := .unchecked, time := e, expected := some (e + 16)
      lock := if r.enters n e then .running else r.lock
      settle := if r.enters n e then none else r.settle.map fun m => min 1024 (m + 1) } := by
  rw [← enters_eq hn]
  simp only [Receiver.startSuperframe, he, Option.getD_some]

theorem settleLength_pos (x : Straps) : 0 < settleLength x := Nat.mul_pos (by decide) (Nat.pow_pos (by decide))

/-- The lock state changes at a superframe start exactly where RUNNING is entered. -/
theorem lock_changes_iff {r : Receiver} {n : Nat} {e : LinkTime} :
    (r.lock != if r.enters n e then .running else r.lock) = r.enters n e := by
  cases h : r.enters n e with
  | false => simp
  | true =>
    have hlock : r.lock = .settling := (of_decide_eq_true h).1
    rw [hlock]
    rfl

/-! ### The superframe start that is a block boundary (R13) -/

section
variable {s : State} {e : LinkTime}

/-- The state at a superframe start: the receiver has moved on, a free value has been drawn or not. -/
def State.started (u : State) (r : Receiver) (n : Nat) : State := { u with rx := r, fresh := n }

/-- The superframe start that is a block boundary: what had to happen before it has happened, and the boundary's work is done. -/
theorem startSuperframe_of_boundary (he : s.rx.expected = some e) (hboundary : e.toNat % 64 = 0) (w : ServiceWord) :
    ∃ n o, s.startSuperframe w = ((s.settleBeforeBoundary.started (s.rx.startSuperframe (settleLength s.straps) w) n).startBoundary e
      (s.rx.enters (settleLength s.straps) e) o) := by
  have hblock : onBlock e = true := onBlock_iff.mpr hboundary
  have hrx : s.settleBeforeBoundary.rx = s.rx := by simp
  have hentry : (s.rx.lock != (s.rx.startSuperframe (settleLength s.straps) w).lock) = s.rx.enters (settleLength s.straps) e := by
    rw [startSuperframe_rx_eq he (settleLength_pos _)]
    exact lock_changes_iff
  unfold State.startSuperframe
  simp only [he, Option.getD_some, hblock, if_true, State.setRx_rx, hrx, hentry]
  split
  · exact ⟨_, _, rfl⟩
  · exact ⟨_, _, rfl⟩

/-- An inbound frame that marks a block boundary. -/
theorem frameArrives_of_boundary (h : s.followsTheLink) (hwords : s.rx.words.length = 16) (he : s.rx.expected = some e)
    (hboundary : e.toNat % 64 = 0) (f : Frame) :
    ∃ n o, s.frameArrives f = (((s.settleBeforeBoundary.started (s.rx.heard.startSuperframe (settleLength s.straps) f.service)
      n).startBoundary e (s.rx.enters (settleLength s.straps) e) o)).passFrame f.samples := by
  obtain ⟨n, o, hstart⟩ := startSuperframe_of_boundary (s := s.setRx s.rx.heard) he hboundary f.service
  refine ⟨n, o, ?_⟩
  rw [frameArrives_following h, State.heldFrame, if_pos (by exact hwords), hstart, settleBeforeBoundary_setRx]
  rfl

/-- An inbound frame that begins a superframe and marks no block boundary. -/
theorem frameArrives_of_plain_start (h : s.followsTheLink) (hwords : s.rx.words.length = 16) (he : s.rx.expected = some e)
    (hplain : e.toNat % 64 ≠ 0) (f : Frame) : s.frameArrives f =
      ((s.setRx (s.rx.heard.startSuperframe (settleLength s.straps) f.service)).startOutbound e).passFrame f.samples := by
  rw [frameArrives_following h, State.heldFrame, if_pos (by exact hwords),
    startSuperframe_of_plain (s := s.setRx s.rx.heard) he hplain]
  rfl

/-- The outbound superframe of a superframe start, one frame of it sent, and the Cell Handler and the Notice Unit as the start leaves
them. -/
theorem passFrame_of_start {X : State} (hsent : X.tx.sent = 0) (hwords : X.rx.words.length = 1) (x : Samples) :
    (X.passFrame x).tx = { X.tx with sent := 1 } ∧ (X.passFrame x).cells = X.cells ∧ (X.passFrame x).notice = X.notice := by
  have hw : ¬(X.rx.words.length = 16 ∧ X.rx.header = .valid) := fun h => absurd (hwords.symm.trans h.1) (by decide)
  obtain ⟨htx, -⟩ := passFrame_sent X x
  obtain ⟨hcells, hnotice⟩ := passFrame_cells_notice hw x
  rw [htx, hcells, hnotice, hsent]
  exact ⟨rfl, rfl, rfl⟩

/-- What an inbound frame that begins a superframe leaves of the receiver and of the outbound superframe. -/
structure SuperframeStarted (s t : State) (r : Receiver) (e : LinkTime) : Prop where
  rx : t.rx = r
  tx : ∃ seen : State, seen.rx = r ∧ seen.straps = s.straps ∧ t.tx = { (seen.startOutbound e).tx with sent := 1 }

theorem frameArrives_superframeStarted (h : s.followsTheLink) (hwords : s.rx.words.length = 16) (he : s.rx.expected = some e)
    (f : Frame) : SuperframeStarted s (s.frameArrives f) (s.rx.heard.startSuperframe (settleLength s.straps) f.service) e := by
  by_cases hboundary : e.toNat % 64 = 0
  · obtain ⟨n, o, hstart⟩ := frameArrives_of_boundary h hwords he hboundary f
    rw [hstart]
    refine ⟨by simp; rfl, _, rfl, ?_, (passFrame_of_start rfl (by simp; rfl) f.samples).1⟩
    exact (by simp : s.settleBeforeBoundary.straps = s.straps)
  · rw [frameArrives_of_plain_start h hwords he hboundary f]
    exact ⟨by simp, s.setRx (s.rx.heard.startSuperframe (settleLength s.straps) f.service), rfl, rfl,
      (passFrame_of_start rfl rfl f.samples).1⟩
end

end Sys2Proof.Machine
end

/-! ## The Notice Unit and the Gain Stage at a block boundary (R13, R190) -/

section
namespace Sys2Proof.Machine

/-! ### The work of a boundary, by the lock state (R13) -/

section
variable {s : State}

theorem boundaryWork_of_running (h : s.rx.lock = .running) (t : LinkTime) (entry : Bool) : s.boundaryWork t entry =
    ((s.swapBoundary.countBoundary.dueCheck t).meterBoundary (s.cueStarts t) entry).gainBoundary t entry := if_pos h

theorem boundaryWork_of_settling (h : s.rx.lock ≠ .running) (t : LinkTime) (entry : Bool) :
    s.boundaryWork t entry = s.swapBoundary.countBoundary.meterSettling := if_neg h

theorem gainAfterBoundary_congr {u : State} (hslots : u.slots = s.slots) (hprogs : u.progs = s.progs)
    (hprofiles : u.profiles = s.profiles) (hdelay : u.delay = s.delay) (hgains : u.gains = s.gains) (t : LinkTime) (entry : Bool)
    (p : Prog) : u.gainAfterBoundary t entry p = s.gainAfterBoundary t entry p := by
  have hopened : u.opened p = s.opened p := by rw [State.opened, State.opened, hprogs]
  rw [State.gainAfterBoundary, State.gainAfterBoundary, hopened, hgains, hdelay, activeProfile_congr hprogs hprofiles,
    largestMagnitude_congr hslots]

theorem gainBoundary_gain (s : State) (t : LinkTime) (entry : Bool) (p : Prog) :
    (s.gainBoundary t entry).gains[p] = s.gainAfterBoundary t entry p := by
  have hoffer (old new : State) : (offerCues old new).gains = new.gains := by simp
  rw [State.gainBoundary, hoffer]
  exact getElem_ofFn_prog _ p

theorem boundaryWork_gain_of_running (h : s.rx.lock = .running) (t : LinkTime) (entry : Bool) (p : Prog) :
    (s.boundaryWork t entry).gains[p] = s.gainAfterBoundary t entry p := by
  rw [boundaryWork_of_running h, gainBoundary_gain]
  exact gainAfterBoundary_congr (by simp) (by simp) (by simp) (by simp) (by simp) t entry p

theorem boundaryWork_gains_of_settling (h : s.rx.lock ≠ .running) (t : LinkTime) (entry : Bool) :
    (s.boundaryWork t entry).gains = s.gains := by
  rw [boundaryWork_of_settling h]
  simp

/-! ### GUARD_PRESSURE at a boundary (R154) -/

theorem ProgSet.ne_zero_iff (a : ProgSet) : a ≠ 0 ↔ ∃ p : Prog, ProgSet.mem a p = true := by
  constructor
  · intro h
    by_contra hnone
    refine h (BitVec.eq_of_getLsbD_eq fun i hi => ?_)
    exact (Bool.eq_false_iff.mpr fun hbit => hnone ⟨⟨i, hi⟩, hbit⟩).trans BitVec.getLsbD_zero.symm
  · rintro ⟨p, hp⟩ rfl
    rw [ProgSet.mem_zero] at hp
    cases hp

theorem ProgSet.mem_and (a b : ProgSet) (p : Prog) : ProgSet.mem (a &&& b) p = (ProgSet.mem a p && ProgSet.mem b p) := by
  simp [ProgSet.mem]

/-- The programmes whose pressure flag the boundary sets. -/
theorem mem_pressed_iff (s : State) (t : LinkTime) (entry : Bool) (p : Prog) :
    ProgSet.mem (s.boundaryClaims t entry).pressed p = true ↔
      s.gains[p].pressure = false ∧ (s.boundaryWork t entry).gains[p].pressure = true := by
  unfold State.boundaryClaims
  by_cases h : s.rx.lock = .running
  · rw [if_pos h, boundaryWork_gain_of_running h, State.newlyPressed, ProgSet.mem_progSetOf, Bool.and_eq_true, Bool.not_eq_true']
  · rw [if_neg h, boundaryWork_gains_of_settling h, ProgSet.mem_zero]
    exact ⟨(nomatch ·), fun hp => absurd hp.2 (by rw [hp.1]; decide)⟩

/-! ### The state as the choice of the outbound cell finds it (R190) -/

variable (s) (e : LinkTime) (entry : Bool) (o : BoundaryOrder)

/-- The state as the choice of the outbound cell finds it, in a boundary's order. -/
def State.seenAtChoice : State := s.atChoice (s.boundaryWork e entry) (s.boundaryClaims e entry) o

theorem startBoundary_tx : (s.startBoundary e entry o).tx = ((s.seenAtChoice e entry o).startOutbound e).tx := rfl

theorem startBoundary_notice_eq : (s.startBoundary e entry o).notice =
    ((s.seenAtChoice e entry o).startOutbound e).notice.takeClaims (s.boundaryClaims e entry) := rfl

theorem startBoundary_gains : (s.startBoundary e entry o).gains = (s.boundaryWork e entry).gains := rfl

theorem seenAtChoice_notice : (s.seenAtChoice e entry o).notice = s.notice.takeClaims ((s.boundaryClaims e entry).before o) := rfl

theorem seenAtChoice_gain (p : Prog) : (s.seenAtChoice e entry o).gains[p] =
    if ProgSet.mem o.stagedFirst p && ProgSet.mem o.guardFirst p then (s.boundaryWork e entry).gains[p] else s.gains[p] :=
  getElem_ofFn_prog _ p

/-- GUARD_PRESSURE is set where the choice finds it set already, or a pressure flag that has moved. -/
theorem seenAtChoice_guardPressure : (s.seenAtChoice e entry o).notice.flags.getLsbD 7 = true ↔
    s.notice.flags.getLsbD 7 = true ∨
      ∃ p : Prog, s.gains[p].pressure = false ∧ (s.seenAtChoice e entry o).gains[p].pressure = true := by
  have hflag := takeClaims_flag s.notice ((s.boundaryClaims e entry).before o) .guardPressure
  have hpressed : (s.notice.takeClaims ((s.boundaryClaims e entry).before o)).flags.getLsbD 7 =
      (s.notice.flags.getLsbD 7 || ((s.boundaryClaims e entry).before o).pressed != 0) := by
    simpa [Condition.bit] using hflag
  rw [seenAtChoice_notice, hpressed, Bool.or_eq_true, bne_iff_ne, ProgSet.ne_zero_iff]
  refine or_congr_right (exists_congr fun p => ?_)
  have hmem : ProgSet.mem ((s.boundaryClaims e entry).before o).pressed p = true ↔
      ProgSet.mem (s.boundaryClaims e entry).pressed p = true ∧ ProgSet.mem o.stagedFirst p = true ∧
        ProgSet.mem o.guardFirst p = true := by
    rw [BoundaryClaims.before, ProgSet.mem_and, ProgSet.mem_and, Bool.and_eq_true, Bool.and_eq_true, and_assoc]
  rw [hmem, mem_pressed_iff, seenAtChoice_gain]
  by_cases hfirst : (ProgSet.mem o.stagedFirst p && ProgSet.mem o.guardFirst p) = true
  · rw [if_pos hfirst]
    exact and_iff_left (Bool.and_eq_true_iff.mp hfirst)
  · rw [if_neg hfirst]
    exact ⟨fun h => absurd (Bool.and_eq_true_iff.mpr h.2) hfirst, fun h => absurd h.2 (by rw [h.1]; decide)⟩

end

/-! ### Claims before and after the start of the outbound superframe (R185, R186) -/

theorem NoticeState.trigger_eq_of {trigger : NoticeState → NoticeState}
    (h : ∀ n, trigger n = match n with | .none | .pending => .pending | .sending | .sendingAgain => .sendingAgain) :
    trigger = NoticeState.trigger := by
  funext n
  rw [h n]
  cases n <;> rfl

theorem NoticeState.report_eq_of {report : NoticeState → NoticeState}
    (h : ∀ n, report n = match n with | .none | .sending => .none | .pending | .sendingAgain => .pending) :
    report = NoticeState.report := by
  funext n
  rw [h n]
  cases n <;> rfl

namespace NoticeUnit.Claimed

variable {n m : NoticeUnit}

theorem exists_trigger (h : n.Claimed m) : ∃ a : Bool, (a = true ↔ n.Triggered m.flags) ∧
    m = { n with flags := m.flags, state := if a then n.state.trigger else n.state } := by
  obtain ⟨a, ha, hstate⟩ := h.state
  refine ⟨a, ha, ?_⟩
  rw [← hstate]
  exact h.settings

/-- A notice whose superframe has begun, after claims. -/
theorem exists_trigger_of_start (h : ({ n with state := n.state.start } : NoticeUnit).Claimed m) :
    ∃ a : Bool, (a = true ↔ n.Triggered m.flags) ∧ m = { n with
      flags := m.flags
      state := if n.state = .none then (if a then .pending else .none) else (if a then .sendingAgain else .sending) } := by
  obtain ⟨a, ha, hm⟩ := h.exists_trigger
  have hstate : (if a then n.state.start.trigger else n.state.start) =
      if n.state = .none then (if a then .pending else .none) else (if a then .sendingAgain else .sending) := by
    cases n.state <;> cases a <;> rfl
  refine ⟨a, ha, ?_⟩
  rw [← hstate]
  exact hm

end NoticeUnit.Claimed

end Sys2Proof.Machine
end

/-! ## Superframes: the receiver, the outbound superframe, and the notice (R6, R10, R18, R21, R186) -/

section
namespace Sys2Proof.Machine

/-! ### The report after the last word of an outbound superframe (R21) -/

section
variable {s : State}

theorem arriveCell_responses_claimed (s : State) (c : Cell) :
    (s.arriveCell c).cells.responses = s.cells.responses ∧ s.notice.Claimed (s.arriveCell c).notice := by
  have hdrop : s.dropCell.cells.responses = s.cells.responses ∧ s.notice.Claimed s.dropCell.notice :=
    ⟨rfl, claimIf_claimed s.notice true .cellLoss⟩
  have hkept : s.cells.responses = s.cells.responses ∧ s.notice.Claimed s.notice := ⟨rfl, .refl _⟩
  unfold State.arriveCell
  split
  case isTrue => exact hkept
  split
  case isTrue => exact ⟨rfl, claimIf_claimed s.notice true .cellLoss⟩
  split
  case isTrue =>
    split
    case isTrue => exact hkept
    unfold State.joinRequests
    split
    · exact hkept
    · exact hdrop
  split
  case isTrue =>
    unfold State.joinBoth
    split
    · exact hkept
    · exact hdrop
  unfold State.joinForward
  split
  · exact hkept
  · exact hdrop

/-- What the frame that completes an outbound superframe leaves, where the report of its cell is due. -/
structure CellReported (s t : State) : Prop where
  responses : t.cells.responses = if s.tx.source = .response then s.cells.responses.drop 1 else s.cells.responses
  notice : ∃ m, s.notice.Claimed m ∧
    t.notice = { m with state := if s.tx.source = .notice then m.state.report else m.state }

theorem cellReported_sentReport {u t : State} (hresponses : u.cells.responses = s.cells.responses)
    (hnotice : s.notice.Claimed u.notice) (hcells : t.cells = (u.sentReport s.tx.source).cells)
    (ht : t.notice = (u.sentReport s.tx.source).notice) : CellReported s t where
  responses := by rw [hcells, ← hresponses, sentReport_eq]
  notice := ⟨u.notice, hnotice, by rw [ht, sentReport_eq]⟩

theorem reportAndArrive_cellReported {v : State} (hcells : v.cells = s.cells) (hnotice : v.notice = s.notice) (c : Cell) :
    CellReported s (v.reportAndArrive (some s.tx.source) (some c)) := by
  have harrive (w : State) (hw : w.cells.responses = s.cells.responses) (hw' : s.notice.Claimed w.notice) :
      (w.arriveCell c).cells.responses = s.cells.responses ∧ s.notice.Claimed (w.arriveCell c).notice :=
    ⟨(arriveCell_responses_claimed w c).1.trans hw, hw'.trans (arriveCell_responses_claimed w c).2⟩
  have hv : v.cells.responses = s.cells.responses := congrArg CellHandler.responses hcells
  have hv' : s.notice.Claimed v.notice := by rw [hnotice]; exact .refl _
  unfold State.reportAndArrive
  dsimp only
  split
  · next hforward =>
    split
    · obtain ⟨hresponses, hclaimed⟩ := harrive v.draw hv hv'
      exact cellReported_sentReport hresponses hclaimed rfl rfl
    · rw [hforward.1]
      obtain ⟨hresponses, hclaimed⟩ := harrive (v.draw.sentReport .forward) hv hv'
      refine ⟨?_, _, hclaimed, ?_⟩
      · rw [hforward.1, if_neg (by decide)]
        exact hresponses
      · rw [hforward.1, if_neg (by decide)]
  · obtain ⟨hresponses, hclaimed⟩ := harrive v hv hv'
    exact cellReported_sentReport hresponses hclaimed rfl rfl

theorem passFrame_cellReported (hlast : s.tx.sent = 15) (x : Samples) : CellReported s (s.passFrame x) := by
  by_cases hw : s.rx.words.length = 16 ∧ s.rx.header = .valid
  · obtain ⟨-, hcells, hnotice⟩ := weighed_sent_cells s x ((s.weighed x).outSamples (s.delay.headD silence))
    rw [passFrame_of_cell hw.1 hw.2, reportDue_of_last hlast]
    exact reportAndArrive_cellReported hcells hnotice _
  · obtain ⟨hcells, hnotice⟩ := passFrame_report s x hw
    rw [reportDue_of_last hlast] at hcells hnotice
    exact cellReported_sentReport rfl (.refl _) hcells hnotice

/-- What the frame that sends the last word leaves, from the state before the frame. -/
structure LastSent (s t : State) : Prop where
  tx : t.tx = { s.tx with sent := 16 }
  reported : CellReported s t
  forward : s.rx.words.length ≠ 15 ∨ s.rx.header ≠ .valid →
    t.cells.forward = if s.tx.source = .forward then s.cells.forward.drop 1 else s.cells.forward

/-- A state ready for a frame to pass: the outbound superframe, the queues and the notice stand, but for claims. -/
theorem lastSent_passFrame {u : State} (hlast : s.tx.sent = 15) (htx : u.tx = s.tx)
    (hresponses : u.cells.responses = s.cells.responses) (hforward : u.cells.forward = s.cells.forward)
    (hnotice : s.notice.Claimed u.notice)
    (hw : s.rx.words.length ≠ 15 ∨ s.rx.header ≠ .valid → ¬(u.rx.words.length = 16 ∧ u.rx.header = .valid)) (x : Samples) :
    LastSent s (u.passFrame x) := by
  have hlast' : u.tx.sent = 15 := by rw [htx, hlast]
  obtain ⟨hpass, -⟩ := passFrame_sent u x
  have hreported := passFrame_cellReported hlast' x
  rw [hlast', if_pos (by decide)] at hpass
  refine ⟨by rw [hpass, htx], ⟨?_, ?_⟩, fun h => ?_⟩
  · rw [hreported.responses, htx, hresponses]
  · obtain ⟨m, hm, hstate⟩ := hreported.notice
    rw [htx] at hstate
    exact ⟨m, hnotice.trans hm, hstate⟩
  · obtain ⟨hcells, -⟩ := passFrame_cells_notice (hw h) x
    rw [hcells, hlast', htx, ← hforward]
    simp only [true_and]

theorem frameArrives_lastSent (h : s.followsTheLink) (hwords : s.rx.words.length ≠ 16) (hlast : s.tx.sent = 15) (f : Frame) :
    (s.frameArrives f).rx.lock = .search ∨ LastSent s (s.frameArrives f) := by
  rw [frameArrives_following h]
  refine heldFrame_cases (P := fun t => t.rx.lock = .search ∨ LastSent s t) (fun hlength => absurd hlength hwords)
    (fun w0 _ hlost => .inl hlost) (fun w0 hw hheld => ?_) fun h16 _ => .inr ?_
  · obtain ⟨r, errors, adopted, hcheck, -, hr⟩ := (checkHeader_lost_or_afterCheck s w0 f).resolve_left hheld
    rw [hcheck]
    refine .inr (lastSent_passFrame (u := s.afterCheck r errors adopted) hlast rfl rfl rfl ?_
      (fun _ hv => absurd (hr.symm.trans hv.1) (by decide)) f.samples)
    cases adopted with
    | false => exact .refl _
    | true => exact claimIf_claimed s.notice true .timeSlip
  · refine lastSent_passFrame (u := s.setRx (s.rx.heard.setWords (s.rx.words ++ [f.service]))) hlast rfl rfl rfl (.refl _) (fun hne hv => ?_) f.samples
    have hlength : (s.rx.words ++ [f.service]).length = 16 := hv.1
    rw [List.length_append, List.length_singleton] at hlength
    exact hne.elim (fun hne => hne (by omega)) fun hne => hne hv.2

/-! ### The choice of the outbound cell (R174, R190) -/

theorem offersCell_congr {u : State} {cell : Cell} {source : CellSource} (hu : u = { s with rx := u.rx, fresh := u.fresh })
    (h : u.OffersCell cell source) : s.OffersCell cell source := by
  rw [hu] at h
  exact h

end

section
variable {s : State} {f : Frame} {e : LinkTime}

/-- The outbound superframe begun in SETTLING and RUNNING: its link time, its header and its first word sent. -/
theorem startOutbound_locked {seen : State} (h : seen.rx.lock = .settling ∨ seen.rx.lock = .running) (e : LinkTime) :
    (seen.startOutbound e).tx.time = e ∧ (seen.startOutbound e).tx.absent = false ∧
    ((seen.startOutbound e).tx.bypass = true ↔ seen.rx.lock = .settling) ∧
    (seen.startOutbound e).tx.hop = if seen.rx.lock = .running then seen.address else seen.rx.hop := by
  refine ⟨rfl, ?_, ?_, rfl⟩
  · rcases h with h | h <;> simp [State.startOutbound, h]
  · simp [State.startOutbound]

theorem currentTime_locked {t : State} (h : t.rx.lock = .settling ∨ t.rx.lock = .running) : t.currentTime = t.rx.time := by
  rcases h with h | h <;> rw [State.currentTime, h]

/-- The state the choice of the outbound cell finds, the cell chosen, and the notice, at a superframe start. -/
structure ChoiceMade (u t seen : State) : Prop where
  offers : seen.OffersCell t.tx.cell t.tx.source
  same : seen = { u with gains := seen.gains, notice := seen.notice }
  cells : t.cells = u.cells
  gains (p : Prog) : seen.gains[p].pressure = u.gains[p].pressure ∨ seen.gains[p].pressure = t.gains[p].pressure
  pressure : seen.notice.flags.getLsbD 7 = true ↔ u.notice.flags.getLsbD 7 = true ∨
    ∃ p : Prog, u.gains[p].pressure = false ∧ seen.gains[p].pressure = true
  before : u.notice.Claimed seen.notice
  after : ({ seen.notice with state := seen.notice.state.start } : NoticeUnit).Claimed t.notice

theorem passFrame_pressure (s : State) (x : Samples) (p : Prog) : (s.passFrame x).gains[p].pressure = s.gains[p].pressure := by
  by_cases hlock : s.rx.lock = .running
  · by_cases hopen : s.progs[p].state = .unused
    · rw [(passFrame_of_closed (.inr hopen) x).2]
    · rw [(passFrame_of_opened hlock hopen x).2]
      rfl
  · rw [(passFrame_of_closed (.inl hlock) x).2]

theorem choiceMade_of_plain (h : s.followsTheLink) (hwords : s.rx.words.length = 16) (he : s.rx.expected = some e)
    (hplain : e.toNat % 64 ≠ 0) (f : Frame) : ChoiceMade s (s.frameArrives f) s ∧
      (s.frameArrives f).notice.flags = s.notice.flags := by
  rw [frameArrives_of_plain_start h hwords he hplain f]
  obtain ⟨htx, hcells, hnotice⟩ := passFrame_of_start
    (X := (s.setRx (s.rx.heard.startSuperframe (settleLength s.straps) f.service)).startOutbound e) rfl rfl f.samples
  refine ⟨⟨?_, rfl, hcells, fun _ => .inl rfl, ?_, .refl _, ?_⟩, by rw [hnotice]; rfl⟩
  · rw [htx]
    exact chooseCell_offers s
  · exact ⟨.inl, fun hp => hp.elim id fun ⟨p, hclear, hset⟩ => absurd hset (by rw [hclear]; decide)⟩
  · rw [hnotice]
    exact .refl _

theorem choiceMade_of_boundary (h : s.followsTheLink) (hwords : s.rx.words.length = 16) (he : s.rx.expected = some e)
    (hboundary : e.toNat % 64 = 0) (f : Frame) : ∃ seen, ChoiceMade s.settleBeforeBoundary (s.frameArrives f) seen := by
  obtain ⟨n, o, hstart⟩ := frameArrives_of_boundary h hwords he hboundary f
  rw [hstart]
  generalize s.rx.enters (settleLength s.straps) e = entry
  have hlength : (s.rx.heard.startSuperframe (settleLength s.straps) f.service).words.length = 1 := rfl
  generalize s.rx.heard.startSuperframe (settleLength s.straps) f.service = r at hlength ⊢
  obtain ⟨htx, hcells, hnotice⟩ := passFrame_of_start (X := (s.settleBeforeBoundary.started r n).startBoundary e entry o) rfl
    (by simpa [State.started] using hlength) f.samples
  refine ⟨((s.settleBeforeBoundary.started r n).seenAtChoice e entry o).started s.settleBeforeBoundary.rx s.settleBeforeBoundary.fresh,
    ⟨?_, rfl, ?_, fun p => ?_, seenAtChoice_guardPressure _ e entry o, takeClaims_claimed _ _, ?_⟩⟩
  · rw [htx]
    exact chooseCell_offers ((s.settleBeforeBoundary.started r n).seenAtChoice e entry o)
  · rw [hcells]
    simp [State.started]
  · rw [passFrame_pressure, startBoundary_gains]
    have hgain := seenAtChoice_gain (s.settleBeforeBoundary.started r n) e entry o p
    by_cases hfirst : (ProgSet.mem o.stagedFirst p && ProgSet.mem o.guardFirst p) = true
    · rw [if_pos hfirst] at hgain
      exact .inr (congrArg GainRecord.pressure hgain)
    · rw [if_neg hfirst] at hgain
      exact .inl (congrArg GainRecord.pressure hgain)
  · rw [hnotice, startBoundary_notice_eq]
    exact takeClaims_claimed _ _

end

/-- Settles O40. -/
theorem superframesTakeTheExpectedTime : Obligations.SuperframesTakeTheExpectedTime := by
  refine ⟨fun s f e enters hfollows hwords he henters => ⟨_, rfl, ?_⟩,
    fun s u f e trigger hfollows hwords he htrigger hu => ?_,
    fun s f trigger report hfollows hwords hlast htrigger hreport => ⟨_, rfl, ?_⟩⟩
  · have hstarted := frameArrives_superframeStarted hfollows hwords he f
    have hrx := hstarted.rx
    rw [startSuperframe_rx_eq (by exact he) (settleLength_pos _), show s.rx.heard.enters (settleLength s.straps) e = enters
      from henters.symm] at hrx
    obtain ⟨seen, hseen, hstraps, htx⟩ := hstarted.tx
    have hseen : seen.rx = (s.frameArrives f).rx := hseen.trans hstarted.rx.symm
    have hlocked : (s.frameArrives f).rx.lock = .settling ∨ (s.frameArrives f).rx.lock = .running := by
      rw [hrx]
      cases enters with
      | true => exact .inr rfl
      | false => exact hfollows.1
    have haddress : seen.address = 0x40 + s.straps.address.setWidth 8 := by rw [State.address_eq, hstraps]
    obtain ⟨htime, habsent, hbypass, hhop⟩ := startOutbound_locked (seen := seen) (by rw [hseen]; exact hlocked) e
    rw [hseen, haddress] at hhop
    rw [hseen] at hbypass
    refine ⟨(currentTime_locked hlocked).trans (by rw [hrx]), hrx, by rw [htx]; exact htime, by rw [htx],
      by rw [htx]; exact habsent, by rw [htx]; exact hbypass, ?_⟩
    rw [htx]
    refine hhop.trans ?_
    rw [hrx]
    rfl
  · have hchoice : ∃ seen, ChoiceMade u (s.frameArrives f) seen ∧
        (e.toNat % 64 ≠ 0 → seen = u ∧ (s.frameArrives f).notice.flags = u.notice.flags) := by
      by_cases hboundary : e.toNat % 64 = 0
      · rw [if_pos hboundary] at hu
        obtain ⟨seen, hseen⟩ := choiceMade_of_boundary hfollows hwords he hboundary f
        exact ⟨seen, hu ▸ hseen, fun hne => absurd hboundary hne⟩
      · rw [if_neg hboundary] at hu
        obtain ⟨hseen, hflags⟩ := choiceMade_of_plain hfollows hwords he hboundary f
        exact ⟨s, hu ▸ hseen, fun _ => ⟨hu.symm, hu ▸ hflags⟩⟩
    obtain ⟨seen, hseen, hplain⟩ := hchoice
    obtain ⟨a, ha, hbefore⟩ := hseen.before.exists_trigger
    obtain ⟨b, hb, hafter⟩ := hseen.after.exists_trigger_of_start
    refine ⟨_, seen, rfl, hseen.offers, hseen.same, hseen.cells, hseen.gains,
      fun k => ⟨hseen.before.flags k, hseen.after.flags k⟩, hseen.pressure, hplain, a, b, ha, hb, ?_, ?_⟩
    · rw [NoticeState.trigger_eq_of htrigger]
      exact hbefore
    · refine hafter.trans ?_
      rw [hseen.before.settings]
  · refine (frameArrives_lastSent hfollows hwords hlast f).imp_right fun h => ?_
    obtain ⟨m, hclaimed, hnotice⟩ := h.reported.notice
    obtain ⟨a, ha, hm⟩ := hclaimed.exists_trigger
    refine ⟨h.tx, h.reported.responses, h.forward, a, ?_, ?_⟩
    · rw [hnotice]
      exact ha
    · rw [hnotice, NoticeState.trigger_eq_of htrigger, NoticeState.report_eq_of hreport, hm]

end Sys2Proof.Machine
end

/-! ## Window completion, programme by programme (R39 to R42, R50 to R55) -/

section
namespace Sys2Proof.Machine

/-! ### One programme's part of the state -/

/-- What window completion reads and changes of one programme. -/
structure WindowPart where
  meter : MeterRecord
  prog : ProgRecord
  profile : Profile
  retune : Bool
  rescale : Bool
  retuneOn : Bool

/-- One programme's part of a state. -/
def State.windowPart (s : State) (p : Prog) : WindowPart :=
  { meter := s.meters[p], prog := s.progs[p], profile := s.activeProfile p, retune := ProgSet.mem s.arbiter.retune p
    rescale := ProgSet.mem s.arbiter.rescale p, retuneOn := s.arbiter.retuneOn }

namespace WindowPart

/-- The part after its segment has started (R60). -/
def startSegment (c : WindowPart) : WindowPart :=
  { c with meter := c.meter.startSegment, prog := { c.prog with generation := c.prog.generation + 1 } }

/-- The part once a window of the loudness has been entered and its retune requested (R52). -/
def enterWindow (c : WindowPart) (l : Option Int) : WindowPart :=
  { c with
    meter := { c.meter with complete := none }.takeWindow c.prog.state c.profile.absoluteGate l
    retune := c.retune || (c.prog.state == .tracking && c.retuneOn) }

/-- The part after the report of a window (R39 to R41); a programme that leaves TRACKING leaves the sets (R34). -/
def report (c : WindowPart) (l : Option Int) : WindowPart :=
  if c.prog.state = .unused then c
  else
    { c with
      prog := c.prog.afterReport c.profile l
      retune := c.retune && !decide (c.prog.state = .tracking ∧ (c.prog.afterReport c.profile l).state ≠ .tracking)
      rescale := c.rescale && !decide (c.prog.state = .tracking ∧ (c.prog.afterReport c.profile l).state ≠ .tracking) }

/-- The part once its window has been completed or discarded (R51). -/
def settle (c : WindowPart) (starts : Bool) : WindowPart :=
  if starts then c.startSegment else c.meter.complete.elim c fun blocks =>
    (c.enterWindow (windowLoudness blocks)).report (windowLoudness blocks)

end WindowPart

section
variable (s : State) (p q : Prog)

theorem startSegment_windowPart : (s.startSegment p).windowPart q = if p = q then (s.windowPart q).startSegment else s.windowPart q := by
  have hprogs : (s.startSegment p).progs[q] = if p = q then { s.progs[p] with generation := s.progs[p].generation + 1 } else s.progs[q] :=
    getElem_set_prog _ _ _ _
  have hmeters : (s.startSegment p).meters[q] = if p = q then s.meters[p].startSegment else s.meters[q] := getElem_set_prog _ _ _ _
  by_cases h : p = q
  · subst h
    rw [if_pos rfl] at hprogs hmeters ⊢
    simp only [State.windowPart, State.activeProfile, hprogs, hmeters]
    rfl
  · rw [if_neg h] at hprogs hmeters ⊢
    simp only [State.windowPart, State.activeProfile, hprogs, hmeters]
    rfl

theorem activeProfile_of_same {s t : State} {q : Prog} (hprofile : t.progs[q].profile = s.progs[q].profile)
    (hprofiles : t.profiles = s.profiles) : t.activeProfile q = s.activeProfile q := by
  rw [activeProfile_of_profile hprofile, hprofiles]
  rfl

theorem setMeter_windowPart (m : MeterRecord) : (s.setMeter p m).windowPart q =
    if p = q then { s.windowPart q with meter := m } else s.windowPart q := by
  have hmeters : (s.setMeter p m).meters[q] = if p = q then m else s.meters[q] := getElem_set_prog _ _ _ _
  unfold State.windowPart
  rw [hmeters]
  split <;> rfl

theorem requestRetune_windowPart : (s.requestRetune p).windowPart q =
    if p = q then { s.windowPart q with
      retune := (s.windowPart q).retune || (s.progs[q].state == .tracking && (s.windowPart q).retuneOn) }
    else s.windowPart q := by
  have hmem : ProgSet.mem (s.requestRetune p).arbiter.retune q =
      (ProgSet.mem s.arbiter.retune q || (s.arbiter.retuneOn && s.tracking p && decide (p = q))) := by
    unfold State.requestRetune
    dsimp only
    split
    · next h => rw [ProgSet.mem_insert, h, Bool.true_and]
    · next h => rw [Bool.eq_false_iff.mpr h, Bool.false_and, Bool.or_false]
  unfold State.windowPart
  rw [hmem]
  by_cases h : p = q
  · subst h
    rw [if_pos rfl, decide_eq_true rfl, Bool.and_true, Bool.and_comm]
    rfl
  · rw [if_neg h, decide_eq_false h, Bool.and_false, Bool.or_false]
    rfl

theorem enterWindow_windowPart (l : Option Int) :
    ((if s.tracking p then (s.setMeter p ({ s.meters[p] with complete := none }.takeWindow s.progs[p].state
        (s.activeProfile p).absoluteGate l)).requestRetune p
      else s.setMeter p ({ s.meters[p] with complete := none }.takeWindow s.progs[p].state
        (s.activeProfile p).absoluteGate l)) : State).windowPart q =
      if p = q then (s.windowPart q).enterWindow l else s.windowPart q := by
  by_cases h : p = q
  · subst h
    rw [if_pos rfl]
    by_cases htracking : s.tracking p = true
    · have hstate : (s.progs[p].state == .tracking) = true := htracking
      rw [if_pos htracking, requestRetune_windowPart, if_pos rfl, setMeter_windowPart, if_pos rfl]
      rfl
    · have hstate : (s.progs[p].state == .tracking) = false := Bool.eq_false_iff.mpr htracking
      rw [if_neg htracking, setMeter_windowPart, if_pos rfl]
      simp only [WindowPart.enterWindow, State.windowPart, hstate, Bool.false_and, Bool.or_false]
  · rw [if_neg h]
    split
    · rw [requestRetune_windowPart, if_neg h, setMeter_windowPart, if_neg h]
    · rw [setMeter_windowPart, if_neg h]

theorem reportWindow_windowPart (l : Option Int) : (s.reportWindow p l).windowPart q =
    if p = q then (s.windowPart q).report l else s.windowPart q := by
  have hprofile : (s.reportWindow p l).activeProfile q = s.activeProfile q :=
    activeProfile_of_same (reportWindow_profile s p q l) (by simp)
  have hmeters : (s.reportWindow p l).meters = s.meters := by simp
  by_cases hopen : s.opened p = true
  · have hstate : s.progs[p].state ≠ .unused := (opened_iff s p).mp hopen
    have hprogs : (s.reportWindow p l).progs[q] =
        if p = q then s.progs[p].afterReport (s.activeProfile p) l else s.progs[q] := by
      rw [State.reportWindow, if_pos hopen]
      exact getElem_set_prog _ _ _ _
    have harbiter : (s.reportWindow p l).arbiter =
        if s.progs[p].state = .tracking ∧ (s.progs[p].afterReport (s.activeProfile p) l).state ≠ .tracking then s.arbiter.leave p
        else s.arbiter := by
      rw [State.reportWindow, if_pos hopen]
    unfold State.windowPart
    rw [hprofile, hmeters, hprogs, harbiter]
    by_cases h : p = q
    · subst h
      rw [if_pos rfl, if_pos rfl, WindowPart.report, if_neg hstate]
      dsimp only
      split
      · next hleft => simp only [Arbiter.leave, ProgSet.mem_erase, decide_eq_true hleft, decide_true]
      · next hleft => simp only [decide_eq_false hleft, Bool.not_false, Bool.and_true]
    · rw [if_neg h, if_neg h]
      split
      · simp [Arbiter.leave, h]
      · rfl
  · have hstate : s.progs[p].state = .unused := not_not.mp (mt (opened_iff s p).mpr hopen)
    rw [State.reportWindow, if_neg hopen]
    split
    · next h => rw [WindowPart.report, if_pos (by rw [← h]; exact hstate)]
    · rfl

/-- Window completion acts on each programme by its own part alone (R51). -/
theorem settleWindow_windowPart (starts : ProgSet) : (State.settleWindow starts s p).windowPart q =
    if p = q then (s.windowPart q).settle (ProgSet.mem starts q) else s.windowPart q := by
  by_cases hstarts : ProgSet.mem starts p = true
  · rw [State.settleWindow, if_pos hstarts, startSegment_windowPart]
    split
    · next h => rw [WindowPart.settle, ← h, if_pos hstarts]
    · rfl
  · rw [State.settleWindow, if_neg hstarts]
    cases hcomplete : s.meters[p].complete with
    | none =>
      dsimp only
      split
      · next h =>
        subst h
        rw [WindowPart.settle, if_neg hstarts]
        exact (congrArg (fun o : Option (List BlockPower) => o.elim (s.windowPart p) _) hcomplete).symm
      · rfl
    | some blocks =>
      dsimp only
      rw [State.completeWindow]
      dsimp only
      rw [reportWindow_windowPart, enterWindow_windowPart]
      split
      · next h =>
        subst h
        rw [WindowPart.settle, if_neg hstarts]
        exact (congrArg (fun o : Option (List BlockPower) => o.elim (s.windowPart p) fun blocks =>
          ((s.windowPart p).enterWindow (windowLoudness blocks)).report (windowLoudness blocks)) hcomplete).symm
      · rfl

theorem foldl_settleWindow_windowPart (starts : ProgSet) (l : List Prog) (hl : l.Nodup) :
    (l.foldl (State.settleWindow starts) s).windowPart q =
      if q ∈ l then (s.windowPart q).settle (ProgSet.mem starts q) else s.windowPart q := by
  induction l generalizing s with
  | nil => rfl
  | cons p l ih =>
    obtain ⟨hnot, hrest⟩ := List.nodup_cons.mp hl
    rw [List.foldl_cons, ih (State.settleWindow starts s p) hrest, settleWindow_windowPart]
    by_cases h : p = q
    · subst h
      rw [if_neg hnot, if_pos rfl, if_pos List.mem_cons_self]
    · rw [if_neg h]
      exact if_congr ⟨List.mem_cons_of_mem p, fun hq => (List.mem_cons.mp hq).resolve_left (Ne.symm h)⟩ rfl rfl

/-! ### PRESENCE (R42) -/

theorem claimIf_of_same_presence (n : NoticeUnit) {old new : ProgRecord} (h : new.presence = old.presence) :
    n.claimIf (old.claimsPresence new) .presence = n := by
  simp [ProgRecord.claimsPresence, h, NoticeUnit.claimIf]

theorem reportWindow_notice (l : Option Int) : (s.reportWindow p l).notice =
    s.notice.claimIf (s.progs[p].claimsPresence (s.reportWindow p l).progs[p]) .presence := by
  by_cases hopen : s.opened p = true
  · have hprog : (s.reportWindow p l).progs[p] = s.progs[p].afterReport (s.activeProfile p) l := by
      rw [State.reportWindow, if_pos hopen]
      exact (getElem_set_prog _ _ _ _).trans (if_pos rfl)
    rw [hprog, State.reportWindow, if_pos hopen]
  · have hnone : s.reportWindow p l = s := if_neg hopen
    rw [hnone, claimIf_of_same_presence _ rfl]

theorem settleWindow_notice (starts : ProgSet) : (State.settleWindow starts s p).notice =
    s.notice.claimIf (s.progs[p].claimsPresence (State.settleWindow starts s p).progs[p]) .presence := by
  by_cases hstarts : ProgSet.mem starts p = true
  · have hstart : State.settleWindow starts s p = s.startSegment p := if_pos hstarts
    have hprog : (s.startSegment p).progs[p].presence = s.progs[p].presence := by
      rw [State.startSegment_progs, getElem_set_prog, if_pos rfl]
    rw [hstart, claimIf_of_same_presence _ hprog]
    rfl
  · cases hcomplete : s.meters[p].complete with
    | none =>
      have hnone : State.settleWindow starts s p = s := by rw [State.settleWindow, if_neg hstarts, hcomplete]
      rw [hnone, claimIf_of_same_presence _ rfl]
    | some blocks =>
      obtain ⟨u, hprogs, hnotice, hu⟩ : ∃ u : State, u.progs = s.progs ∧ u.notice = s.notice ∧
          State.settleWindow starts s p = u.reportWindow p (windowLoudness blocks) := by
        refine ⟨if s.tracking p then (s.setMeter p ({ s.meters[p] with complete := none }.takeWindow s.progs[p].state
          (s.activeProfile p).absoluteGate (windowLoudness blocks))).requestRetune p else s.setMeter p
          ({ s.meters[p] with complete := none }.takeWindow s.progs[p].state (s.activeProfile p).absoluteGate
            (windowLoudness blocks)), ?_, ?_, ?_⟩
        · split <;> rfl
        · split <;> rfl
        · rw [State.settleWindow, if_neg hstarts, hcomplete]
          rfl
      rw [hu, reportWindow_notice, hprogs, hnotice]

/-- Claims of one condition, one after another, are one claim. -/
theorem claimIf_claimIf (n : NoticeUnit) (a b : Bool) (k : Condition) :
    (n.claimIf a k).claimIf b k = n.claimIf (a || b) k := by
  cases a with
  | false => rfl
  | true =>
    cases b with
    | false => rfl
    | true =>
      have hset : (n.claimIf true k).flags.getLsbD k.bit = true := by simp [claimIf_flag]
      exact NoticeUnit.claim_of_set hset

/-- Whether the completion of a programme's window claims PRESENCE (R42). -/
def State.claimsAtSettle (s : State) (starts : ProgSet) (p : Prog) : Bool :=
  s.progs[p].claimsPresence ((s.windowPart p).settle (ProgSet.mem starts p)).prog

theorem foldl_settleWindow_notice (starts : ProgSet) (l : List Prog) (hl : l.Nodup) :
    (l.foldl (State.settleWindow starts) s).notice = s.notice.claimIf (l.any (s.claimsAtSettle starts)) .presence := by
  induction l generalizing s with
  | nil => rfl
  | cons p l ih =>
    obtain ⟨hnot, hrest⟩ := List.nodup_cons.mp hl
    have hown : (State.settleWindow starts s p).progs[p] = ((s.windowPart p).settle (ProgSet.mem starts p)).prog := by
      have h := settleWindow_windowPart s p p starts
      rw [if_pos rfl] at h
      exact congrArg WindowPart.prog h
    have hothers : l.any ((State.settleWindow starts s p).claimsAtSettle starts) = l.any (s.claimsAtSettle starts) := by
      rw [Bool.eq_iff_iff, List.any_eq_true, List.any_eq_true]
      refine exists_congr fun q => and_congr_right fun hq => ?_
      have h := settleWindow_windowPart s p q starts
      rw [if_neg fun hpq => hnot (by rw [hpq]; exact hq)] at h
      have hprog : (State.settleWindow starts s p).progs[q] = s.progs[q] := congrArg WindowPart.prog h
      rw [State.claimsAtSettle, State.claimsAtSettle, h, hprog]
    rw [List.foldl_cons, ih (State.settleWindow starts s p) hrest, hothers, settleWindow_notice, claimIf_claimIf, hown]
    rfl

end

/-! ### What window completion leaves -/

/-- `s` with all of `t` that window completion can change but for the held segment starts. -/
def State.withWindows (s t : State) : State :=
  { s with
    meters := t.meters, progs := t.progs, notice := t.notice
    arbiter := { s.arbiter with retune := t.arbiter.retune, rescale := t.arbiter.rescale } }

theorem reportWindow_withWindows (s : State) (p : Prog) (l : Option Int) : s.reportWindow p l = s.withWindows (s.reportWindow p l) := by
  unfold State.reportWindow State.withWindows
  split
  · dsimp only
    split <;> rfl
  · rfl

theorem withWindows_trans {s t u : State} (h : t = s.withWindows t) (g : u = t.withWindows u) : u = s.withWindows u :=
  calc u = t.withWindows u := g
    _ = (s.withWindows t).withWindows u := congrArg (State.withWindows · u) h
    _ = s.withWindows u := rfl

theorem settleWindow_withWindows (starts : ProgSet) (s : State) (p : Prog) :
    State.settleWindow starts s p = s.withWindows (State.settleWindow starts s p) := by
  unfold State.settleWindow
  split
  · rfl
  · split
    · unfold State.completeWindow
      dsimp only
      refine withWindows_trans ?_ (reportWindow_withWindows _ p _)
      split <;> rfl
    · rfl

theorem foldl_settleWindow_withWindows (starts : ProgSet) (l : List Prog) (s : State) :
    l.foldl (State.settleWindow starts) s = s.withWindows (l.foldl (State.settleWindow starts) s) := by
  induction l generalizing s with
  | nil => rfl
  | cons p l ih => exact withWindows_trans (settleWindow_withWindows starts s p) (ih (State.settleWindow starts s p))

end Sys2Proof.Machine
end

/-! ## Window completion (R39 to R42, R50 to R55) -/

section
namespace Sys2Proof.Machine

/-! ### The completion of one window -/

section
variable (c : WindowPart) (l : Option Int)

/-- Whether a window counts as loud (R39). -/
def Profile.loud (q : Profile) (l : Option Int) : Bool := decide (∃ v, l = some v ∧ q.presenceThreshold ≤ v)

theorem reportedPresence_of_loud {q : Profile} {l : Option Int} (h : q.loud l = true) (r : ProgRecord) :
    reportedPresence q r l = (.present, 0) := by
  obtain ⟨v, rfl, hv⟩ := of_decide_eq_true h
  exact if_pos (decide_eq_true hv)

theorem reportedPresence_of_quiet {q : Profile} {l : Option Int} (h : q.loud l = false) (r : ProgRecord) :
    reportedPresence q r l = (if q.silenceWindows ≤ min 255 (r.silentRun + 1) then .silent else r.presence,
      min 255 (r.silentRun + 1)) := by
  have hquiet : reportedPresence q r l = if q.silenceWindows ≤ min 255 (r.silentRun + 1)
      then (.silent, min 255 (r.silentRun + 1)) else (r.presence, min 255 (r.silentRun + 1)) := by
    cases l with
    | none => rfl
    | some v => exact if_neg fun hv => of_decide_eq_false h ⟨v, rfl, of_decide_eq_true hv⟩
  rw [hquiet]
  split <;> rfl

/-- The presence and the silent run after a report (R39). -/
theorem reportedPresence_eq (q : Profile) (r : ProgRecord) (l : Option Int) : reportedPresence q r l =
    (if q.loud l then .present else if q.silenceWindows ≤ (if q.loud l then 0 else min 255 (r.silentRun + 1)) then .silent
      else r.presence, if q.loud l then 0 else min 255 (r.silentRun + 1)) := by
  cases h : q.loud l with
  | true => exact reportedPresence_of_loud h r
  | false => exact reportedPresence_of_quiet h r

/-- The record after a report: presence and silent run, and the state a change of presence moves it to (R39, R41). -/
theorem afterReport_eq {q : Profile} {r : ProgRecord} {l : Option Int} {presence : Presence} {run : Nat} {moved : ProgState}
    (hreported : reportedPresence q r l = (presence, run))
    (hmoved : moved = if presence = r.presence then r.state else presenceState r.state presence) :
    r.afterReport q l = { r with
      presence := presence, silentRun := run, state := moved
      generation := if moved = r.state then r.generation else r.generation + 1 } := by
  have hreport : r.report q l = { r with presence := presence, silentRun := run } := by rw [ProgRecord.report, hreported]
  rw [ProgRecord.afterReport, hreport, hmoved]
  dsimp only
  by_cases h : presence = r.presence
  · rw [if_pos h, if_pos h, if_pos rfl]
  · rw [if_neg h, if_neg h, ProgRecord.toState]
    dsimp only
    by_cases hstate : r.state = presenceState r.state presence
    · rw [if_pos hstate, ← hstate, if_pos rfl]
    · rw [if_neg hstate, if_neg (Ne.symm hstate)]

theorem presenceState_eq (st : ProgState) (pr : Presence) : presenceState st pr =
    match st, pr with | .dormant, .present => .tracking | .tracking, .silent => .dormant | st, _ => st := by
  cases st <;> cases pr <;> rfl

/-! ### The ring and the histogram (R52, R54, R55) -/

variable (m : MeterRecord)

theorem takeWindow_of_none (st : ProgState) (gate : Int) : m.takeWindow st gate none = m := by
  cases st <;> rfl

theorem takeWindow_of_uncounted {st : ProgState} (h : st = .dormant ∨ st = .unused) (gate : Int) (l : Option Int) :
    m.takeWindow st gate l = m := by
  rcases h with rfl | rfl <;> rfl

theorem takeWindow_of_counted {st : ProgState} (h : st ≠ .dormant) (h' : st ≠ .unused) (gate v : Int) :
    m.takeWindow st gate (some v) = if gate ≤ v then ({ m with ring := enterRing m.ring v } : MeterRecord).countWindow v
      else { m with ring := enterRing m.ring v } := by
  cases st with
  | dormant => exact absurd rfl h
  | unused => exact absurd rfl h'
  | tracking | held | overridden => rfl

theorem countWindow_bin (v : Int) (k : Fin 300) : (m.countWindow v).histogram[k] =
    if (k : Nat) = min 299 ((v + 700) / 2).toNat then min 65535 (m.histogram[k] + 1) else m.histogram[k] := by
  have hset : (m.countWindow v).histogram[k] = if binOf v = k then min 65535 (m.histogram[binOf v]'(by unfold binOf; omega) + 1)
      else m.histogram[k] := by
    simp [MeterRecord.countWindow, Vector.getElem_set]
  rw [hset]
  by_cases h : binOf v = k
  · rw [if_pos h, if_pos (by rw [← h]; rfl)]
    simp only [h, Fin.getElem_fin]
  · rw [if_neg h, if_neg fun hk => h (by rw [hk]; rfl)]

/-- A window that is entered: the ring takes it, and from the gate on it is counted. -/
theorem takeWindow_entered {st : ProgState} (h : st ≠ .dormant) (h' : st ≠ .unused) (gate v : Int) :
    m.takeWindow st gate (some v) = { m with
      ring := (m.ring ++ [v]).drop (m.ring.length + 1 - 30)
      histogram := (m.takeWindow st gate (some v)).histogram, total := (m.takeWindow st gate (some v)).total } ∧
    (v < gate → (m.takeWindow st gate (some v)).histogram = m.histogram ∧ (m.takeWindow st gate (some v)).total = m.total) ∧
    (gate ≤ v → (m.takeWindow st gate (some v)).total = min 4294967295 (m.total + 1) ∧
      ∀ k : Fin 300, (m.takeWindow st gate (some v)).histogram[k] = if (k : Nat) = min 299 ((v + 700) / 2).toNat
        then min 65535 (m.histogram[k] + 1) else m.histogram[k]) := by
  rw [takeWindow_of_counted m h h']
  by_cases hgate : gate ≤ v
  · rw [if_pos hgate]
    exact ⟨rfl, fun hlt => absurd hgate (not_le.mpr hlt), fun _ => ⟨rfl, countWindow_bin _ v⟩⟩
  · rw [if_neg hgate]
    exact ⟨rfl, fun _ => ⟨rfl, rfl⟩, fun hle => absurd hle hgate⟩
end

/-! ### One programme's part -/

section
variable {c : WindowPart} {blocks : List BlockPower}

theorem settle_of_none {starts : Bool} (hstarts : starts = false) (h : c.meter.complete = none) : c.settle starts = c := by
  rw [WindowPart.settle, hstarts, h]
  rfl

theorem settle_of_some {starts : Bool} (hstarts : starts = false) (h : c.meter.complete = some blocks) :
    c.settle starts = (c.enterWindow (windowLoudness blocks)).report (windowLoudness blocks) := by
  rw [WindowPart.settle, hstarts, h]
  rfl

theorem report_of_opened (h : c.prog.state ≠ .unused) (l : Option Int) : c.report l = { c with
    prog := c.prog.afterReport c.profile l
    retune := c.retune && !decide (c.prog.state = .tracking ∧ (c.prog.afterReport c.profile l).state ≠ .tracking)
    rescale := c.rescale && !decide (c.prog.state = .tracking ∧ (c.prog.afterReport c.profile l).state ≠ .tracking) } := if_neg h

/-- The sets stay as they are where the segment starts, no window is complete, or the programme is not TRACKING. -/
theorem settle_sets {starts : Bool} (h : starts = true ∨ c.meter.complete = none ∨ c.prog.state ≠ .tracking) :
    (c.settle starts).retune = c.retune ∧ (c.settle starts).rescale = c.rescale := by
  cases starts with
  | true => exact ⟨rfl, rfl⟩
  | false =>
    cases hcomplete : c.meter.complete with
    | none =>
      rw [settle_of_none rfl hcomplete]
      exact ⟨rfl, rfl⟩
    | some blocks =>
      have hstate : c.prog.state ≠ .tracking := by
        rcases h with h | h | h
        · cases h
        · rw [hcomplete] at h; cases h
        · exact h
      have hentered : (c.enterWindow (windowLoudness blocks)).prog.state ≠ .tracking := hstate
      rw [settle_of_some rfl hcomplete, WindowPart.report]
      split
      · simp [WindowPart.enterWindow, hstate]
      · simp [WindowPart.enterWindow, hstate]

/-- A TRACKING programme requests its retune, and stays in the sets while it stays TRACKING. -/
theorem settle_sets_of_tracking (hcomplete : c.meter.complete = some blocks) (h : c.prog.state = .tracking) {moved : ProgState}
    (hmoved : (c.prog.afterReport c.profile (windowLoudness blocks)).state = moved) :
    (c.settle false).retune = (decide (moved = .tracking) && (c.retuneOn || c.retune)) ∧
    (c.settle false).rescale = (decide (moved = .tracking) && c.rescale) := by
  rw [settle_of_some rfl hcomplete, report_of_opened (c := c.enterWindow (windowLoudness blocks)) (by exact h.trans_ne (by decide))]
  simp only [WindowPart.enterWindow, h, hmoved]
  by_cases hstay : moved = .tracking
  · simp [hstay, Bool.or_comm]
  · simp [hstay]
end

section
variable {s : State} {starts : ProgSet}

theorem settleWindows_of_some (h : s.heldStarts = some starts) :
    s.settleWindows = { allProgs.foldl (State.settleWindow starts) s with heldStarts := none } := by
  unfold State.settleWindows
  rw [h]

theorem settleWindows_windowPart (h : s.heldStarts = some starts) (p : Prog) :
    s.settleWindows.windowPart p = (s.windowPart p).settle (ProgSet.mem starts p) := by
  have hfold := foldl_settleWindow_windowPart s p starts allProgs (List.nodup_finRange 16)
  rw [if_pos (by exact List.mem_finRange p)] at hfold
  rw [settleWindows_of_some h]
  exact hfold

theorem settleWindows_notice (h : s.heldStarts = some starts) :
    s.settleWindows.notice = s.notice.claimIf (allProgs.any (s.claimsAtSettle starts)) .presence := by
  rw [settleWindows_of_some h]
  exact foldl_settleWindow_notice s starts allProgs (List.nodup_finRange 16)

theorem settleWindows_eq (h : s.heldStarts = some starts) : s.settleWindows = { s with
    heldStarts := none, meters := s.settleWindows.meters, progs := s.settleWindows.progs, notice := s.settleWindows.notice
    arbiter := { s.arbiter with retune := s.settleWindows.arbiter.retune, rescale := s.settleWindows.arbiter.rescale } } := by
  rw [settleWindows_of_some h]
  exact congrArg (fun u : State => { u with heldStarts := none }) (foldl_settleWindow_withWindows starts allProgs s)

theorem claimsPresence_iff {old new : ProgRecord} :
    old.claimsPresence new = true ↔ new.presence ≠ old.presence ∧ new.presence ≠ old.reference := by
  rw [ProgRecord.claimsPresence, Bool.and_eq_true, bne_iff_ne, bne_iff_ne]

theorem claimsAtSettle_iff (h : s.heldStarts = some starts) (p : Prog) : s.claimsAtSettle starts p = true ↔
    s.settleWindows.progs[p].presence ≠ s.progs[p].presence ∧ s.settleWindows.progs[p].presence ≠ s.progs[p].reference := by
  have hprog : s.settleWindows.progs[p] = ((s.windowPart p).settle (ProgSet.mem starts p)).prog :=
    congrArg WindowPart.prog (settleWindows_windowPart h p)
  rw [hprog]
  exact claimsPresence_iff
end

/-- Settles O47, programme by programme. -/
theorem windowsAreCompletedOrDiscarded : Obligations.WindowsAreCompletedOrDiscarded := by
  intro s starts hheld
  refine ⟨_, rfl, settleWindows_eq hheld, fun p => ⟨fun hstart => ?_, fun hstart hnone => ?_, fun hstay => ?_,
    fun blocks loudness loud run presence moved hstart hcomplete hopen hloudness hloud hrun hpresence hmoved => ?_, fun hstay => ?_⟩⟩
  · have hpart := settleWindows_windowPart hheld p
    rw [hstart] at hpart
    exact ⟨congrArg WindowPart.meter hpart, congrArg WindowPart.prog hpart⟩
  · have hpart := settleWindows_windowPart hheld p
    rw [settle_of_none hstart hnone] at hpart
    exact ⟨congrArg WindowPart.meter hpart, congrArg WindowPart.prog hpart⟩
  · have hpart := settleWindows_windowPart hheld p
    obtain ⟨hretune, hrescale⟩ := settle_sets (c := s.windowPart p) (starts := ProgSet.mem starts p) hstay
    exact ⟨(congrArg WindowPart.retune hpart).trans hretune, (congrArg WindowPart.rescale hpart).trans hrescale⟩
  · have hpart := settleWindows_windowPart hheld p
    have hloud : loud = (s.activeProfile p).loud loudness := hloud
    have hrecord : s.progs[p].afterReport (s.activeProfile p) (windowLoudness blocks) = { s.progs[p] with
        presence := presence, silentRun := run, state := moved
        generation := if moved = s.progs[p].state then s.progs[p].generation else s.progs[p].generation + 1 } := by
      refine afterReport_eq ?_ ?_
      · rw [reportedPresence_eq, ← hloudness, ← hloud, ← hrun, ← hpresence]
      · exact hmoved.trans (if_congr Iff.rfl rfl (presenceState_eq _ _).symm)
    have hsettle : (s.windowPart p).settle (ProgSet.mem starts p) =
        ((s.windowPart p).enterWindow (windowLoudness blocks)).report (windowLoudness blocks) := settle_of_some hstart hcomplete
    have hreport := report_of_opened (c := (s.windowPart p).enterWindow (windowLoudness blocks)) hopen (windowLoudness blocks)
    have hmeter : s.settleWindows.meters[p] = ({ s.meters[p] with complete := none } : MeterRecord).takeWindow s.progs[p].state
        (s.activeProfile p).absoluteGate loudness := by
      rw [hloudness]
      exact congrArg WindowPart.meter (hpart.trans (hsettle.trans hreport))
    refine ⟨(congrArg WindowPart.prog (hpart.trans (hsettle.trans hreport))).trans hrecord, fun hplain => ?_, fun v hstate hv => ?_,
      fun htracking => ?_, fun hchanged haway => ?_⟩
    · rw [hmeter]
      rcases hplain with hdormant | hnone
      · exact takeWindow_of_uncounted _ (.inl hdormant) _ _
      · rw [hnone]
        exact takeWindow_of_none _ _ _
    · rw [hmeter, hv]
      exact takeWindow_entered _ hstate hopen _ v
    · have hsets := settle_sets_of_tracking (c := s.windowPart p) hcomplete htracking (congrArg ProgRecord.state hrecord)
      rw [hstart] at hpart
      exact ⟨(congrArg WindowPart.retune hpart).trans hsets.1, (congrArg WindowPart.rescale hpart).trans hsets.2⟩
    · have hprog := (congrArg WindowPart.prog (hpart.trans (hsettle.trans hreport))).trans hrecord
      have hclaims : s.claimsAtSettle starts p = true := by
        refine (claimsAtSettle_iff hheld p).mpr ?_
        have hsame : s.settleWindows.progs[p].presence = presence := congrArg ProgRecord.presence hprog
        rw [hsame]
        exact ⟨hchanged, haway⟩
      have hany : allProgs.any (s.claimsAtSettle starts) = true := List.any_eq_true.mpr ⟨p, List.mem_finRange p, hclaims⟩
      rw [settleWindows_notice hheld, hany]
      rfl
  · rw [settleWindows_notice hheld]
    have hnone : allProgs.any (s.claimsAtSettle starts) = false := by
      rw [List.any_eq_false]
      intro p _ hclaims
      obtain ⟨hchanged, haway⟩ := (claimsAtSettle_iff hheld p).mp hclaims
      exact (hstay p).elim hchanged haway
    rw [hnone]
    rfl

end Sys2Proof.Machine
end

/-! ## A block boundary of RUNNING (R48, R51, R124, R144) -/

section
namespace Sys2Proof.Machine

/-! ### The work of a boundary in RUNNING -/

section
variable {s : State}

theorem checkDue_eq (t : LinkTime) : Cue.checkDue t = fun c => if c.due = false ∧ atOrBefore c.block t = true
    then { c with due := true, late := c.late || before c.block t } else c := by
  funext c
  rw [Cue.checkDue, Cue.becomesDue]
  exact if_congr (by rw [Bool.and_eq_true, Bool.not_eq_true']) rfl rfl

theorem dueCheck_cues_owed (s : State) (t : LinkTime) :
    (s.dueCheck t).cues = s.cues.map (Cue.checkDue t) ∧ (s.dueCheck t).owed = 0 := by
  simp [State.dueCheck]

/-- What the boundary's work in RUNNING leaves beside the arbiter, the operation in flight and the gains. -/
theorem boundaryWork_running_frame (h : s.rx.lock = .running) (t : LinkTime) (entry : Bool) :
    (s.boundaryWork t entry).progs = s.progs ∧ (s.boundaryWork t entry).owed = 0 ∧
    (s.boundaryWork t entry).cues = s.cues.map (Cue.checkDue t) ∧
    (s.boundaryWork t entry).heldStarts = some (s.cueStarts t ||| s.resetMarks) := by
  obtain ⟨hcues, howed⟩ := dueCheck_cues_owed s.swapBoundary.countBoundary t
  have hmarks : (s.swapBoundary.countBoundary.dueCheck t).resetMarks = s.resetMarks := by
    simp [State.resetMarks]
  rw [boundaryWork_of_running h]
  refine ⟨by simp, by simpa using howed, by simpa using hcues, ?_⟩
  rw [← hmarks]
  simp [State.meterBoundary]

theorem boundaryWork_running_meter (h : s.rx.lock = .running) (t : LinkTime) (entry : Bool) (p : Prog) :
    (s.boundaryWork t entry).meters[p] = if s.opened p then s.meters[p].closeBlock entry else s.meters[p] := by
  have hmeters : (s.boundaryWork t entry).meters =
      ((s.swapBoundary.countBoundary.dueCheck t).meterBoundary (s.cueStarts t) entry).meters := by
    rw [boundaryWork_of_running h]
    simp
  have hopened : (s.swapBoundary.countBoundary.dueCheck t).opened p = s.opened p := opened_of_progs (by simp) p
  have hbefore : (s.swapBoundary.countBoundary.dueCheck t).meters = s.meters := by simp
  rw [hmeters, ← hopened, ← hbefore]
  exact getElem_ofFn_prog _ p

/-- The segment starts a boundary of RUNNING hands the Meter (R51, R125). -/
theorem mem_starts_iff (s : State) (t : LinkTime) (p : Prog) : ProgSet.mem (s.cueStarts t ||| s.resetMarks) p = true ↔
    (∃ c ∈ s.cues, c.prog = p ∧ c.kind = .segment ∧ c.due = false ∧ atOrBefore c.block t = true) ∨
      ProgSet.mem s.owed p = true ∨ s.meters[p].resetMark = true := by
  rw [State.cueStarts, State.dueSegments, State.resetMarks, ProgSet.mem_or, ProgSet.mem_or, ProgSet.mem_progSetOf,
    ProgSet.mem_progSetOf, Bool.or_eq_true, Bool.or_eq_true, or_assoc, List.any_eq_true]
  refine or_congr_left (exists_congr fun c => and_congr_right fun _ => ?_)
  rw [Cue.becomesDue, Bool.and_eq_true, Bool.and_eq_true, Bool.and_eq_true, Bool.not_eq_true', beq_iff_eq, beq_iff_eq, and_assoc]

/-! ### The blocks of a window (R48, R49) -/

theorem closeBlock_frame (m : MeterRecord) (entry : Bool) :
    (m.closeBlock entry).sum = 0 ∧ (m.closeBlock entry).frames = 0 ∧ (m.closeBlock entry).resetMark = false ∧
    (m.closeBlock entry).ring = m.ring ∧ (m.closeBlock entry).histogram = m.histogram ∧ (m.closeBlock entry).total = m.total ∧
    (m.closeBlock entry).lastShort = m.lastShort ∧ (m.closeBlock entry).lastIntegrated = m.lastIntegrated := by
  unfold MeterRecord.closeBlock
  split
  · split <;> exact ⟨rfl, rfl, rfl, rfl, rfl, rfl, rfl, rfl⟩
  · exact ⟨rfl, rfl, rfl, rfl, rfl, rfl, rfl, rfl⟩

theorem closeBlock_of_counting {m : MeterRecord} {blocks : List BlockPower} (h : m.window = some blocks) :
    (blocks.length ≠ 74 → (m.closeBlock false).window = some (blocks ++ [⟨m.sum, m.frames⟩]) ∧
      (m.closeBlock false).complete = m.complete) ∧
    (blocks.length = 74 → (m.closeBlock false).window = some [] ∧
      (m.closeBlock false).complete = some (blocks ++ [⟨m.sum, m.frames⟩])) := by
  unfold MeterRecord.closeBlock
  rw [h]
  refine ⟨fun hne => ?_, fun h74 => ?_⟩
  · simp only [if_neg hne, and_self]
  · simp only [if_pos h74, and_self]

theorem closeBlock_of_begun {m : MeterRecord} {entry : Bool} (h : entry = true ∨ m.window = none) :
    (m.closeBlock entry).window = some [] ∧ (m.closeBlock entry).complete = m.complete := by
  unfold MeterRecord.closeBlock
  rcases h with rfl | h
  · exact ⟨rfl, rfl⟩
  · rw [h]
    cases entry <;> exact ⟨rfl, rfl⟩
end

/-! ### The frame that marks the boundary -/

section
variable {u : State} {r : Receiver}

/-- The state after a boundary of RUNNING and the frame that marks it. -/
structure RunningBoundary (u t : State) (e : LinkTime) (entry : Bool) : Prop where
  frame : t.owed = 0 ∧ t.progs = u.progs ∧ t.slots = u.slots ∧ t.profiles = u.profiles ∧
    t.cues = u.cues.map (Cue.checkDue e)
  starts : t.heldStarts = some (u.cueStarts e ||| u.resetMarks)
  opened (p : Prog) : u.progs[p].state ≠ .unused →
    t.meters[p] = { u.meters[p].closeBlock entry with sum := t.framePower p, frames := 1 } ∧
    t.gains[p] = (u.gains[p].boundaryWork (u.activeProfile p) e entry (u.largestMagnitude p (u.delay.take 64))).raiseTo
      (u.largestMagnitude p [u.delay.headD silence]) (u.activeProfile p).ceiling
  closed (p : Prog) : u.progs[p].state = .unused → t.gains[p] = u.gains[p] ∧ t.meters[p] = u.meters[p]

theorem gainAfterBoundary_of_opened {p : Prog} (h : u.progs[p].state ≠ .unused) (e : LinkTime) (entry : Bool) :
    u.gainAfterBoundary e entry p =
      u.gains[p].boundaryWork (u.activeProfile p) e entry (u.largestMagnitude p (u.delay.take 64)) :=
  if_pos ((opened_iff u p).mpr h)

theorem gainAfterBoundary_of_closed {p : Prog} (h : u.progs[p].state = .unused) (e : LinkTime) (entry : Bool) :
    u.gainAfterBoundary e entry p = u.gains[p] := if_neg fun ho => (opened_iff u p).mp ho h

theorem passFrame_queues (X : State) (x : Samples) :
    (X.passFrame x).owed = X.owed ∧ (X.passFrame x).cues = X.cues ∧ (X.passFrame x).heldStarts = X.heldStarts := by simp

theorem runningBoundary_passFrame (h : r.lock = .running) (n : Nat) (e : LinkTime) (entry : Bool) (o : BoundaryOrder) (x : Samples) :
    RunningBoundary u (((u.started r n).startBoundary e entry o).passFrame x) e entry := by
  have hlock : ((u.started r n).startBoundary e entry o).rx.lock = .running := by simpa [State.started] using h
  obtain ⟨hprogs, howed, hcues, hstarts⟩ := boundaryWork_running_frame (s := u.started r n) h e entry
  have hprogs' : ((u.started r n).startBoundary e entry o).progs = u.progs := hprogs
  have hslots : ((u.started r n).startBoundary e entry o).slots = u.slots := by simp [State.started]
  have hprofiles : ((u.started r n).startBoundary e entry o).profiles = u.profiles := by simp [State.started]
  have hdelay : ((u.started r n).startBoundary e entry o).delay = u.delay := by simp [State.started]
  have hmeter (p : Prog) : ((u.started r n).startBoundary e entry o).meters[p] =
      if u.opened p then u.meters[p].closeBlock entry else u.meters[p] :=
    boundaryWork_running_meter (s := u.started r n) h e entry p
  have hgain (p : Prog) : ((u.started r n).startBoundary e entry o).gains[p] = u.gainAfterBoundary e entry p :=
    boundaryWork_gain_of_running (s := u.started r n) h e entry p
  obtain ⟨howed', hcues', hheld⟩ := passFrame_queues ((u.started r n).startBoundary e entry o) x
  replace howed' := howed'.trans howed
  replace hcues' := hcues'.trans hcues
  constructor
  case frame =>
    exact ⟨howed', by simpa using hprogs', by simpa using hslots, by simpa using hprofiles, hcues'⟩
  case starts => exact hheld.trans hstarts
  case opened =>
    intro p hopen
    obtain ⟨hm, hg⟩ := passFrame_of_opened hlock (by rw [hprogs']; exact hopen) x
    obtain ⟨hsum, hframes, -⟩ := closeBlock_frame u.meters[p] entry
    rw [hm, hg, hmeter, if_pos ((opened_iff u p).mpr hopen), hgain, gainAfterBoundary_of_opened hopen, hdelay,
      largestMagnitude_congr hslots, activeProfile_congr hprogs' hprofiles, hsum, hframes, Nat.zero_add]
    exact ⟨rfl, rfl⟩
  case closed =>
    intro p hclosed
    obtain ⟨hm, hg⟩ := passFrame_of_closed (s := (u.started r n).startBoundary e entry o) (p := p)
      (.inr (by rw [hprogs']; exact hclosed)) x
    rw [hm, hg, hmeter, if_neg fun ho => (opened_iff u p).mp ho hclosed, hgain, gainAfterBoundary_of_closed hclosed]
    exact ⟨rfl, rfl⟩
end

section
variable {s : State} {e : LinkTime}

/-- At a block boundary RUNNING is entered once the settle length has been reached (R10). -/
theorem enters_of_boundary (hboundary : e.toNat % 64 = 0) : s.rx.enters (settleLength s.straps) e =
    decide (s.rx.lock = .settling ∧ ∃ n, s.rx.settle = some n ∧ 16 * 4 ^ s.straps.settle.toNat ≤ min 1024 (n + 1)) := by
  rw [Receiver.enters]
  exact decide_eq_decide.mpr ⟨fun h => ⟨h.1, h.2.2⟩, fun h => ⟨h.1, hboundary, h.2⟩⟩

/-- The lock state after a superframe start. -/
theorem startSuperframe_lock (he : s.rx.expected = some e) (w : ServiceWord) :
    (s.rx.heard.startSuperframe (settleLength s.straps) w).lock =
      if s.rx.enters (settleLength s.straps) e then .running else s.rx.lock := by
  rw [startSuperframe_rx_eq (by exact he) (settleLength_pos _)]
  rfl

theorem frameArrives_runningBoundary (h : s.followsTheLink) (hwords : s.rx.words.length = 16) (he : s.rx.expected = some e)
    (hboundary : e.toNat % 64 = 0) (hlock : s.rx.lock = .running ∨ s.rx.enters (settleLength s.straps) e = true) (f : Frame) :
    (s.frameArrives f).rx.lock = .running ∧
    RunningBoundary s.settleBeforeBoundary (s.frameArrives f) e (s.rx.enters (settleLength s.straps) e) := by
  have hrunning : (s.rx.heard.startSuperframe (settleLength s.straps) f.service).lock = .running := by
    rw [startSuperframe_lock he]
    rcases hlock with hlock | hlock
    · rw [hlock, ite_self]
    · rw [if_pos hlock]
  obtain ⟨n, o, hstart⟩ := frameArrives_of_boundary h hwords he hboundary f
  refine ⟨?_, ?_⟩
  · rw [(frameArrives_superframeStarted h hwords he f).rx]
    exact hrunning
  · rw [hstart]
    exact runningBoundary_passFrame hrunning n e _ o f.samples
end

/-- Settles O51. -/
theorem aBoundaryOfRunningWorksCuesMeterAndGains : Obligations.ABoundaryOfRunningWorksCuesMeterAndGains := by
  intro s u f e entry hfollows hwords he hboundary hu hentry hlock
  rw [← enters_of_boundary hboundary] at hentry
  obtain ⟨hrunning, h⟩ := frameArrives_runningBoundary hfollows hwords he hboundary (by rw [← hentry]; exact hlock) f
  rw [← hu, ← hentry] at h
  refine ⟨s.frameArrives f, u.cueStarts e ||| u.resetMarks, rfl, hrunning, ?_⟩
  generalize s.frameArrives f = t at h
  obtain ⟨howed, hprogs, hslots, hprofiles, hcues⟩ := h.frame
  refine ⟨howed, h.starts, hprogs, hslots, hprofiles, by rw [hcues, checkDue_eq], fun p =>
    ⟨mem_starts_iff u e p, fun hopen => ?_, h.closed p⟩⟩
  obtain ⟨hmeter, hgain⟩ := h.opened p hopen
  obtain ⟨-, -, hmark, hkept⟩ := closeBlock_frame u.meters[p] entry
  rw [hmeter]
  dsimp only
  refine ⟨rfl, rfl, hmark, fun blocks hno hblocks => ?_, closeBlock_of_begun (m := u.meters[p]), hkept, hgain⟩
  rw [hno]
  exact closeBlock_of_counting (m := u.meters[p]) hblocks

end Sys2Proof.Machine
end

/-! ## The operation in flight at a block boundary (R90, R97, R99) -/

section
namespace Sys2Proof.Machine

/-! ### What a cancel reads and changes -/

/-- The two states agree in the operation in flight, the in-use mark, the arbiter, and the programmes. -/
structure SameOp (s t : State) : Prop where
  engine : t.engine = s.engine
  lawMark : t.lawMark = s.lawMark
  arbiter : t.arbiter = s.arbiter
  progs : t.progs = s.progs

theorem SameOp.trans {s t u : State} (h : SameOp s t) (g : SameOp t u) : SameOp s u :=
  ⟨g.engine.trans h.engine, g.lawMark.trans h.lawMark, g.arbiter.trans h.arbiter, g.progs.trans h.progs⟩

/-- The state cancelled where `b` holds. -/
def State.cancelIf (s : State) (b : Bool) : State := if b then s.cancelAutomatic else s

section
variable {s t : State}

theorem SameOp.reenter (h : SameOp s t) (op : Operation) (p : Prog) :
    SameOp (s.idleEngine.reenter op p) (t.idleEngine.reenter op p) := by
  have htracking : t.tracking p = s.tracking p := by rw [State.tracking, State.tracking, h.progs]
  have hidle : SameOp s.idleEngine t.idleEngine := ⟨rfl, rfl, h.arbiter, h.progs⟩
  have hset (w : State) (q : Prog) : w.idleEngine.tracking q = w.tracking q := rfl
  cases op with
  | retune =>
    refine ⟨rfl, rfl, ?_, h.progs⟩
    simp only [State.reenter, State.requestRetune, hset, htracking, hidle.arbiter]
  | rescale =>
    refine ⟨rfl, rfl, ?_, h.progs⟩
    simp only [State.reenter, State.requestRescale, hset, htracking, hidle.arbiter]
  | cue e => exact hidle
  | directive d r => exact hidle
  | probe q r => exact hidle

theorem SameOp.cancelAutomatic (h : SameOp s t) : SameOp s.cancelAutomatic t.cancelAutomatic := by
  unfold State.cancelAutomatic
  rw [h.engine]
  cases s.engine with
  | none => exact h
  | some f =>
    dsimp only
    split
    · exact h.reenter f.op f.prog
    · exact h

theorem SameOp.cancelIf (h : SameOp s t) (b : Bool) : SameOp (s.cancelIf b) (t.cancelIf b) := by
  cases b with
  | false => exact h
  | true => exact h.cancelAutomatic

theorem offerCues_eq_cancelIf (old new : State) : offerCues old new = new.cancelIf (newlyEligible old new) := rfl

/-- After a cancel there is nothing more to cancel. -/
theorem cancelAutomatic_cancelAutomatic (s : State) : s.cancelAutomatic.cancelAutomatic = s.cancelAutomatic := by
  by_cases h : s.automaticInFlight = true
  · exact cancelAutomatic_of_idle (by rw [cancelAutomatic_engine, if_pos h])
  · have hsame : s.cancelAutomatic = s := by
      unfold State.cancelAutomatic
      cases hf : s.engine with
      | none => rfl
      | some f =>
        have hother : ¬f.op.automatic = true := by simpa [State.automaticInFlight, hf] using h
        exact if_neg hother
    rw [hsame, hsame]

theorem cancelIf_cancelIf (s : State) (a b : Bool) : (s.cancelIf a).cancelIf b = s.cancelIf (a || b) := by
  cases a <;> cases b
  · rfl
  · rfl
  · rfl
  · exact cancelAutomatic_cancelAutomatic s

/-! ### Entries that become eligible through a boundary (R90, R143) -/

theorem eligible_of_fewer_staged {e : Cue} (hcues : t.cues = s.cues)
    (hstaged : t.gains[e.prog].staged.length ≤ s.gains[e.prog].staged.length) (h : s.eligible e = true) : t.eligible e = true := by
  obtain ⟨hdue, hfirst, hroom⟩ := eligible_iff.mp h
  exact eligible_iff.mpr ⟨hdue, by rw [hcues]; exact hfirst, hstaged.trans_lt hroom⟩

theorem eligible_of_room {e : Cue} (hcues : t.cues = s.cues) (hroom : t.gains[e.prog].staged.length < 2)
    (h : s.eligible e = true) : t.eligible e = true := by
  obtain ⟨hdue, hfirst, -⟩ := eligible_iff.mp h
  exact eligible_iff.mpr ⟨hdue, by rw [hcues]; exact hfirst, hroom⟩

theorem eligible_congr {e : Cue} (hcues : t.cues = s.cues)
    (hstaged : t.gains[e.prog].staged.length = s.gains[e.prog].staged.length) : t.eligible e = s.eligible e := by
  rw [Bool.eq_iff_iff, eligible_iff, eligible_iff, hcues, hstaged]

/-- Through a change of the cues and then of the staged lists, an entry becomes eligible in one step or the other exactly where one
does in all. -/
theorem newlyEligible_trans {u : State} (hgains : t.gains = s.gains) (hcues : u.cues = t.cues)
    (hstaged : ∀ p : Prog, u.gains[p].staged.length ≤ t.gains[p].staged.length) :
    (newlyEligible s t || newlyEligible t u) = newlyEligible s u := by
  rw [Bool.eq_iff_iff, Bool.or_eq_true, newlyEligible_iff, newlyEligible_iff, newlyEligible_iff]
  constructor
  · rintro (⟨e, hnew, hold⟩ | ⟨e, hnew, hold⟩)
    · exact ⟨e, eligible_of_fewer_staged hcues (hstaged e.prog) hnew, hold⟩
    · refine ⟨e, hnew, Bool.eq_false_iff.mpr fun helig => ?_⟩
      obtain ⟨-, -, hroom⟩ := eligible_iff.mp helig
      have hmid : t.eligible e = true := eligible_of_room hcues.symm (by rw [hgains]; exact hroom) hnew
      exact absurd (hmid.symm.trans hold) (by decide)
  · rintro ⟨e, hnew, hold⟩
    by_cases hmid : t.eligible e = true
    · exact .inl ⟨e, hmid, hold⟩
    · exact .inr ⟨e, hnew, Bool.eq_false_iff.mpr hmid⟩

theorem newlyEligible_congr {s' t' : State} (hcues : s'.cues = s.cues) (hgains : s'.gains = s.gains) (hcues' : t'.cues = t.cues)
    (hgains' : ∀ p : Prog, t'.gains[p].staged.length = t.gains[p].staged.length) : newlyEligible s' t' = newlyEligible s t := by
  rw [Bool.eq_iff_iff, newlyEligible_iff, newlyEligible_iff]
  refine exists_congr fun e => ?_
  rw [eligible_congr hcues' (hgains' e.prog), eligible_congr hcues (by rw [hgains])]

/-- A change that the Cue Queue is told of cancels where it makes an entry eligible, and is otherwise as it was. -/
theorem offerCues_op {old new : State} (h : SameOp old new) :
    SameOp (old.cancelIf (newlyEligible old (offerCues old new))) (offerCues old new) := by
  have hnew : newlyEligible old (offerCues old new) = newlyEligible old new :=
    newlyEligible_congr rfl rfl (by simp) fun p => by simp
  rw [hnew]
  exact h.cancelIf _

/-! ### The boundary's work on the operation in flight -/

theorem gainAfterBoundary_staged_length (s : State) (t : LinkTime) (entry : Bool) (p : Prog) :
    (s.gainAfterBoundary t entry p).staged.length ≤ s.gains[p].staged.length := by
  unfold State.gainAfterBoundary
  split
  · rw [boundaryWork_staged]
    exact List.length_filter_le _ _
  · exact le_rfl

/-- The state once a boundary has swapped the pending tables and the operation in flight has counted it. -/
def State.counted (s : State) : State := s.swapBoundary.countBoundary

/-- At a boundary of RUNNING an operation in flight is cancelled where an entry becomes eligible through the boundary. -/
theorem boundaryWork_running_op (h : s.rx.lock = .running) (e : LinkTime) (entry : Bool) :
    SameOp (s.counted.cancelIf (newlyEligible s (s.boundaryWork e entry))) (s.boundaryWork e entry) := by
  have hdue : SameOp (s.counted.cancelIf (newlyEligible s.counted (s.counted.dueCheck e))) (s.counted.dueCheck e) :=
    offerCues_op (new := { s.counted with cues := s.counted.cues.map (Cue.checkDue e), owed := 0 }) ⟨rfl, rfl, rfl, rfl⟩
  have hmeter : SameOp (s.counted.dueCheck e) ((s.counted.dueCheck e).meterBoundary (s.cueStarts e) entry) :=
    ⟨by simp, by simp, by simp, by simp⟩
  obtain ⟨v, hv⟩ : ∃ v, v = (s.counted.dueCheck e).meterBoundary (s.cueStarts e) entry := ⟨_, rfl⟩
  have hwork : s.boundaryWork e entry = v.gainBoundary e entry := by
    rw [boundaryWork_of_running h, hv]
    rfl
  have hvcues : v.cues = (s.counted.dueCheck e).cues := by rw [hv]; simp
  have hvgains : v.gains = s.gains := by rw [hv]; simp [State.counted]
  have hgain : SameOp (v.cancelIf (newlyEligible v (v.gainBoundary e entry))) (v.gainBoundary e entry) :=
    offerCues_op (new := v.setGains (Vector.ofFn (v.gainAfterBoundary e entry))) ⟨by simp, by simp, by simp, by simp⟩
  have hboth : (newlyEligible s.counted (s.counted.dueCheck e) || newlyEligible v (v.gainBoundary e entry)) =
      newlyEligible s (v.gainBoundary e entry) := by
    have hfirst : newlyEligible s.counted (s.counted.dueCheck e) = newlyEligible s v :=
      newlyEligible_congr rfl rfl hvcues.symm fun p => by rw [hvgains]; simp [State.counted]
    rw [hfirst]
    refine newlyEligible_trans hvgains (by simp) fun p => ?_
    rw [gainBoundary_gain]
    exact gainAfterBoundary_staged_length v e entry p
  rw [hwork, ← hboth, ← cancelIf_cancelIf]
  exact (((hdue.trans (hv ▸ hmeter)).cancelIf _).trans hgain)

end
end Sys2Proof.Machine
end

/-! ## What every block boundary swaps, counts and claims (R13, R83, R84, R97, R99, R124, R145, R154) -/

section
namespace Sys2Proof.Machine

/-! ### The completion of the operation in flight (R97) -/

section
variable {s : State}

theorem settleBeforeBoundary_of_uncounted (h : ∀ g, s.settleWindows.engine = some g → g.boundaries = 0) :
    s.settleBeforeBoundary = s.settleWindows := by
  unfold State.settleBeforeBoundary
  dsimp only
  split
  · next g hg => exact if_neg (by rw [h g hg]; decide)
  · rfl

theorem settleBeforeBoundary_of_counted {g : InFlight} (hg : s.settleWindows.engine = some g) (h : 1 ≤ g.boundaries) :
    s.settleBeforeBoundary = s.settleWindows.finish g operationEffects := by
  unfold State.settleBeforeBoundary
  dsimp only
  rw [hg]
  exact (if_pos h).trans (onEngine_of hg rfl _)

/-! ### The operation in flight (R97, R99) -/

theorem counted_engine (s : State) : s.counted.engine = s.engine.map fun g => { g with boundaries := g.boundaries + 1 } := rfl

theorem counted_rescale_mem (s : State) (p : Prog) : ProgSet.mem s.counted.arbiter.rescale p = true ↔
    ProgSet.mem s.arbiter.rescale p = true ∨ (s.arbiter.rescaleOn = true ∧ s.progs[p].state = .tracking ∧
      s.laws[(s.activeProfile p).lawTable].pending = true) := by
  have hset : s.counted.arbiter.rescale = if s.arbiter.rescaleOn then s.arbiter.rescale ||| s.swapRescales else s.arbiter.rescale := rfl
  rw [hset]
  split
  · next hon =>
    rw [ProgSet.mem_or, State.swapRescales, ProgSet.mem_progSetOf, Bool.or_eq_true, Bool.and_eq_true, tracking_iff]
    exact or_congr_right ⟨fun h => ⟨hon, h⟩, fun h => h.2⟩
  · next hoff => exact (or_iff_left fun h => hoff h.1).symm

/-- A programme joins a set where the set is open to it and it is TRACKING (R91). -/
theorem mem_insert_iff (s : State) (a : ProgSet) (on : Bool) (q p : Prog) :
    ProgSet.mem (if on = true ∧ s.progs[q].state = .tracking then ProgSet.insert a q else a) p = true ↔
      ProgSet.mem a p = true ∨ (on = true ∧ s.progs[p].state = .tracking ∧ true = true ∧ q = p) := by
  split
  · next h =>
    rw [ProgSet.mem_insert, Bool.or_eq_true, decide_eq_true_eq]
    refine or_congr_right ⟨fun hqp => ?_, fun hr => hr.2.2.2⟩
    subst hqp
    exact ⟨h.1, h.2, rfl, rfl⟩
  · next h =>
    refine (or_iff_left fun hr => h ?_).symm
    obtain ⟨hon, hstate, -, rfl⟩ := hr
    exact ⟨hon, hstate⟩

/-- What a cancel leaves of the arbiter's sets: the cancelled programme is repeated into the set it came from (R99). -/
theorem cancelIf_op {b cancelled : Bool} (h : cancelled = true ↔ s.automaticInFlight = true ∧ b = true) :
    (s.cancelIf b).engine = (if cancelled then none else s.engine) ∧
    (s.cancelIf b).lawMark = (if cancelled then none else s.lawMark) ∧
    ∀ p : Prog,
      (ProgSet.mem (s.cancelIf b).arbiter.rescale p = true ↔ ProgSet.mem s.arbiter.rescale p = true ∨
        (s.arbiter.rescaleOn = true ∧ s.progs[p].state = .tracking ∧ cancelled = true ∧
          ∃ g, s.engine = some g ∧ g.op = .rescale ∧ g.prog = p)) ∧
      (ProgSet.mem (s.cancelIf b).arbiter.retune p = true ↔ ProgSet.mem s.arbiter.retune p = true ∨
        (s.arbiter.retuneOn = true ∧ s.progs[p].state = .tracking ∧ cancelled = true ∧
          ∃ g, s.engine = some g ∧ g.op = .retune ∧ g.prog = p)) := by
  cases cancelled with
  | false =>
    have hsame : s.cancelIf b = s := by
      cases b with
      | false => rfl
      | true =>
        have hnot : ¬s.automaticInFlight = true := fun ha => Bool.false_ne_true (h.mpr ⟨ha, rfl⟩)
        cases hf : s.engine with
        | none => exact cancelAutomatic_of_idle hf
        | some f =>
          exact cancelAutomatic_of_other hf (fun hop => hnot ((automaticInFlight_iff s).mpr ⟨f, hf, .inl hop⟩))
            fun hop => hnot ((automaticInFlight_iff s).mpr ⟨f, hf, .inr hop⟩)
    rw [hsame]
    simp
  | true =>
    obtain ⟨hautomatic, rfl⟩ := h.mp rfl
    obtain ⟨f, hf, hop⟩ := (automaticInFlight_iff s).mp hautomatic
    have hprog {op : Operation} (hfop : f.op = op) (p : Prog) : (∃ g, s.engine = some g ∧ g.op = op ∧ g.prog = p) ↔ f.prog = p :=
      ⟨fun ⟨g, hg, _, hp⟩ => by cases hf.symm.trans hg; exact hp, fun hp => ⟨f, hf, hfop, hp⟩⟩
    have hno {op : Operation} (hfop : f.op ≠ op) (p : Prog) : ¬∃ g, s.engine = some g ∧ g.op = op ∧ g.prog = p :=
      fun ⟨g, hg, hgop, _⟩ => by cases hf.symm.trans hg; exact hfop hgop
    rcases hop with hop | hop
    · have hcancel : s.cancelIf true = s.idleEngine.requestRetune f.prog := cancelAutomatic_of_retune hf hop
      rw [hcancel, requestRetune_eq]
      refine ⟨rfl, rfl, fun p => ⟨?_, ?_⟩⟩
      · rw [or_iff_left fun hr => hno (op := .rescale) (by rw [hop]; decide) p hr.2.2.2]
        rfl
      · rw [hprog hop]
        exact mem_insert_iff s s.arbiter.retune s.arbiter.retuneOn f.prog p
    · have hcancel : s.cancelIf true = s.idleEngine.requestRescale f.prog := cancelAutomatic_of_rescale hf hop
      rw [hcancel, requestRescale_eq]
      refine ⟨rfl, rfl, fun p => ⟨?_, ?_⟩⟩
      · rw [hprog hop]
        exact mem_insert_iff s s.arbiter.rescale s.arbiter.rescaleOn f.prog p
      · rw [or_iff_left fun hr => hno (op := .retune) (by rw [hop]; decide) p hr.2.2.2]
        rfl

/-! ### The boundary's work, by the lock state -/

/-- At a boundary an operation in flight counts the boundary, and is cancelled where an entry becomes eligible. -/
theorem boundaryWork_op (s : State) (e : LinkTime) (entry : Bool) :
    (s.boundaryWork e entry).engine = (s.counted.cancelIf (newlyEligible s (s.boundaryWork e entry))).engine ∧
    (s.boundaryWork e entry).lawMark = (s.counted.cancelIf (newlyEligible s (s.boundaryWork e entry))).lawMark ∧
    (s.boundaryWork e entry).arbiter = (s.counted.cancelIf (newlyEligible s (s.boundaryWork e entry))).arbiter := by
  by_cases h : s.rx.lock = .running
  · have hop := boundaryWork_running_op h e entry
    exact ⟨hop.engine, hop.lawMark, hop.arbiter⟩
  · have hwork := boundaryWork_of_settling h e entry
    have hnone : newlyEligible s (s.boundaryWork e entry) = false := by
      rw [Bool.eq_false_iff, ne_eq, newlyEligible_iff]
      rintro ⟨c, hnew, hold⟩
      rw [eligible_congr (s := s) (by rw [hwork]; simp) (by rw [boundaryWork_gains_of_settling h]), hold] at hnew
      cases hnew
    rw [hnone, hwork]
    exact ⟨by simp [State.cancelIf, State.counted], by simp [State.cancelIf, State.counted], by simp [State.cancelIf, State.counted]⟩

/-- What a boundary leaves of the operation in flight and of the arbiter. -/
structure OpCounted (u t : State) (cancelled : Bool) : Prop where
  engine : t.engine = if cancelled then none else u.engine.map fun g => { g with boundaries := g.boundaries + 1 }
  lawMark : t.lawMark = if cancelled then none else u.lawMark
  arbiter : t.arbiter = { u.arbiter with retune := t.arbiter.retune, rescale := t.arbiter.rescale }
  rescale (p : Prog) : ProgSet.mem t.arbiter.rescale p = true ↔ ProgSet.mem u.arbiter.rescale p = true ∨
    (u.arbiter.rescaleOn = true ∧ u.progs[p].state = .tracking ∧
      (u.laws[(u.activeProfile p).lawTable].pending = true ∨
        (cancelled = true ∧ ∃ g, u.engine = some g ∧ g.op = .rescale ∧ g.prog = p)))
  retune (p : Prog) : ProgSet.mem t.arbiter.retune p = true ↔ ProgSet.mem u.arbiter.retune p = true ∨
    (u.arbiter.retuneOn = true ∧ u.progs[p].state = .tracking ∧
      cancelled = true ∧ ∃ g, u.engine = some g ∧ g.op = .retune ∧ g.prog = p)

theorem counted_inFlight_iff (s : State) (op : Operation) (p : Prog) :
    (∃ g, s.counted.engine = some g ∧ g.op = op ∧ g.prog = p) ↔ ∃ g, s.engine = some g ∧ g.op = op ∧ g.prog = p := by
  rw [counted_engine]
  cases s.engine <;> simp

theorem counted_automaticInFlight (s : State) : s.counted.automaticInFlight = s.automaticInFlight := by
  rw [State.automaticInFlight, counted_engine, State.automaticInFlight]
  cases s.engine <;> rfl

theorem boundaryWork_opCounted (s : State) (e : LinkTime) (entry : Bool) {cancelled : Bool}
    (h : cancelled = true ↔ s.automaticInFlight = true ∧ newlyEligible s (s.boundaryWork e entry) = true) :
    OpCounted s (s.boundaryWork e entry) cancelled := by
  obtain ⟨hengine, hmark, harbiter⟩ := boundaryWork_op s e entry
  rw [← counted_automaticInFlight] at h
  obtain ⟨hengine', hmark', hsets⟩ := cancelIf_op (s := s.counted) h
  constructor
  case engine => rw [hengine, hengine', counted_engine]
  case lawMark => rw [hmark, hmark']; rfl
  case arbiter => exact eq_of_withoutSets (boundaryWork_withoutSets s e entry)
  case rescale =>
    intro p
    have hset := (hsets p).1
    rw [counted_rescale_mem, counted_inFlight_iff] at hset
    rw [harbiter, hset, or_assoc]
    refine or_congr_right ⟨?_, ?_⟩
    · rintro (⟨hon, hstate, hpending⟩ | ⟨hon, hstate, hcancelled⟩)
      · exact ⟨hon, hstate, .inl hpending⟩
      · exact ⟨hon, hstate, .inr hcancelled⟩
    · rintro ⟨hon, hstate, hpending | hcancelled⟩
      · exact .inl ⟨hon, hstate, hpending⟩
      · exact .inr ⟨hon, hstate, hcancelled⟩
  case retune =>
    intro p
    have hset := (hsets p).2
    rw [counted_inFlight_iff] at hset
    rw [harbiter]
    exact hset

theorem boundaryWork_law (s : State) (e : LinkTime) (entry : Bool) (k : TableNo) : (s.boundaryWork e entry).laws[k] =
    if s.laws[k].pending = true then { s.laws[k] with active := s.laws[k].active.other, pending := false } else s.laws[k] := by
  have hlaws : (s.boundaryWork e entry).laws = Vector.ofFn fun t : TableNo => (s.laws[t]).swap := by
    by_cases h : s.rx.lock = .running
    · rw [boundaryWork_of_running h]
      simp
      rfl
    · rw [boundaryWork_of_settling h]
      simp
      rfl
  rw [hlaws]
  simp only [Fin.getElem_fin, Vector.getElem_ofFn]
  rfl

end

/-! ### The claims of a boundary -/

section
variable (s : State) (e : LinkTime) (entry : Bool)

theorem swapPending_iff : s.swapPending = true ↔ ∃ j : TableNo, s.laws[j].pending = true := by
  simp [State.swapPending, List.any_eq_true, allTables]

theorem dueLate_iff : s.dueLate e = true ↔
    ∃ c ∈ s.cues, c.due = false ∧ atOrBefore c.block e = true ∧ before c.block e = true := by
  simp [State.dueLate, Cue.becomesDue, and_assoc]

theorem appliesLate_iff : s.appliesLate e ≠ 0 ↔ ∃ p : Prog, s.progs[p].state ≠ .unused ∧
    ∃ x ∈ s.gains[p].staged, atOrBefore x.boundary e = true ∧ before x.boundary e = true := by
  rw [ProgSet.ne_zero_iff]
  refine exists_congr fun p => ?_
  rw [State.appliesLate, ProgSet.mem_progSetOf, Bool.and_eq_true, opened_iff, GainRecord.lateEntry, GainRecord.dueEntries,
    List.any_eq_true]
  simp only [List.mem_filter, and_assoc]

/-- What the claims of a boundary set. -/
theorem boundaryClaims_flag (k : Condition) : (s.notice.takeClaims (s.boundaryClaims e entry)).flags.getLsbD k.bit = true ↔
    s.notice.flags.getLsbD k.bit = true ∨ (k = .swapDone ∧ ∃ j : TableNo, s.laws[j].pending = true) ∨
      (k = .cueLate ∧ s.rx.lock = .running ∧
        ((∃ c ∈ s.cues, c.due = false ∧ atOrBefore c.block e = true ∧ before c.block e = true) ∨
          ∃ p : Prog, s.progs[p].state ≠ .unused ∧
            ∃ x ∈ s.gains[p].staged, atOrBefore x.boundary e = true ∧ before x.boundary e = true)) ∨
      (k = .guardPressure ∧ ∃ p : Prog, s.gains[p].pressure = false ∧ (s.boundaryWork e entry).gains[p].pressure = true) := by
  have hswap : (s.boundaryClaims e entry).swap = s.swapPending := by
    unfold State.boundaryClaims
    split <;> rfl
  have hlate : ((s.boundaryClaims e entry).due || (s.boundaryClaims e entry).staged != 0) = true ↔
      s.rx.lock = .running ∧ (s.dueLate e = true ∨ s.appliesLate e ≠ 0) := by
    unfold State.boundaryClaims
    split
    · next h => rw [Bool.or_eq_true, bne_iff_ne, and_iff_right h]
    · next h => exact ⟨(nomatch ·), fun hr => absurd hr.1 h⟩
  have hpressed : ((s.boundaryClaims e entry).pressed != 0) = true ↔
      ∃ p : Prog, s.gains[p].pressure = false ∧ (s.boundaryWork e entry).gains[p].pressure = true := by
    rw [bne_iff_ne, ProgSet.ne_zero_iff]
    exact exists_congr fun p => mem_pressed_iff s e entry p
  rw [dueLate_iff, appliesLate_iff] at hlate
  rw [takeClaims_flag, Bool.or_eq_true, Bool.or_eq_true, Bool.or_eq_true, Bool.and_eq_true, Bool.and_eq_true, Bool.and_eq_true,
    decide_eq_true_eq, decide_eq_true_eq, decide_eq_true_eq, hlate, hpressed, hswap, swapPending_iff, or_assoc, or_assoc]
  rw [and_comm (b := k = .swapDone), and_comm (b := k = .cueLate), and_comm (b := k = .guardPressure)]
end

/-! ### Segment-reset marks in SETTLING (R60, R62) -/

/-- A fold of which each step acts on its own programme's part acts on every programme of the list once. -/
theorem foldl_own_part {α : Type} {step : State → Prog → State} {part : State → Prog → α} {act : α → α}
    (h : ∀ s q p, part (step s q) p = if q = p then act (part s p) else part s p) (l : List Prog) (hl : l.Nodup) (s : State)
    (p : Prog) : part (l.foldl step s) p = if p ∈ l then act (part s p) else part s p := by
  induction l generalizing s with
  | nil => rfl
  | cons q l ih =>
    obtain ⟨hnot, hrest⟩ := List.nodup_cons.mp hl
    rw [List.foldl_cons, ih hrest, h]
    by_cases hqp : q = p
    · subst hqp
      rw [if_neg hnot, if_pos rfl, if_pos List.mem_cons_self]
    · rw [if_neg hqp]
      exact if_congr ⟨List.mem_cons_of_mem q, fun hp => (List.mem_cons.mp hp).resolve_left (Ne.symm hqp)⟩ rfl rfl

/-- A programme's Meter record and record once its segment-reset mark has been taken. -/
def takeMark (x : MeterRecord × ProgRecord) : MeterRecord × ProgRecord :=
  if x.1.resetMark then ({ x.1 with resetMark := false }.startSegment, { x.2 with generation := x.2.generation + 1 }) else x

theorem takeResetMark_part (s : State) (q p : Prog) :
    ((s.takeResetMark q).meters[p], (s.takeResetMark q).progs[p]) =
      if q = p then takeMark (s.meters[p], s.progs[p]) else (s.meters[p], s.progs[p]) := by
  unfold State.takeResetMark takeMark
  by_cases hmark : s.meters[q].resetMark = true
  · rw [if_pos hmark]
    simp only [State.startSegment_meters, State.startSegment_progs, State.setMeter_meters, State.setMeter_progs, getElem_set_prog,
      if_true]
    by_cases h : q = p
    · subst h
      rw [if_pos rfl, if_pos rfl, if_pos rfl, if_pos hmark]
    · rw [if_neg h, if_neg h, if_neg h, if_neg h]
  · rw [if_neg hmark]
    split
    · next h => rw [if_neg (by rw [← h]; exact hmark)]
    · rfl

theorem meterSettling_part (s : State) (p : Prog) :
    (s.meterSettling.meters[p], s.meterSettling.progs[p]) = takeMark (s.meters[p], s.progs[p]) := by
  have h := foldl_own_part (part := fun u q => (u.meters[q], u.progs[q])) (act := takeMark) takeResetMark_part allProgs
    (List.nodup_finRange 16) s p
  rw [if_pos (by exact List.mem_finRange p)] at h
  exact h

end Sys2Proof.Machine
end

/-! ## Every block boundary (R13, R83, R84, R97, R99, R124, R145, R154) -/

section
namespace Sys2Proof.Machine

section
variable (X : State) (x : Samples)

theorem passFrame_op : (X.passFrame x).engine = X.engine ∧ (X.passFrame x).lawMark = X.lawMark ∧
    (X.passFrame x).arbiter = X.arbiter ∧ (X.passFrame x).laws = X.laws := by simp

theorem passFrame_staged (p : Prog) : (X.passFrame x).gains[p].staged = X.gains[p].staged := by
  by_cases hlock : X.rx.lock = .running
  · by_cases hopen : X.progs[p].state = .unused
    · rw [(passFrame_of_closed (.inr hopen) x).2]
    · rw [(passFrame_of_opened hlock hopen x).2]
      rfl
  · rw [(passFrame_of_closed (.inl hlock) x).2]

theorem passFrame_eligible (c : Cue) : (X.passFrame x).eligible c = X.eligible c :=
  eligible_congr (passFrame_queues X x).2.1 (by rw [passFrame_staged])
end

/-- What every block boundary leaves, from the state once what had to happen before it has happened. -/
structure BoundaryMarked (u t : State) (e : LinkTime) : Prop where
  laws (k : TableNo) : t.laws[k] = if u.laws[k].pending = true
    then { u.laws[k] with active := u.laws[k].active.other, pending := false } else u.laws[k]
  op (cancelled : Bool) : (cancelled = true ↔ u.automaticInFlight = true ∧ ∃ c, t.eligible c = true ∧ u.eligible c = false) →
    OpCounted u t cancelled
  flags (k : Condition) : t.notice.flags.getLsbD k.bit = true ↔ u.notice.flags.getLsbD k.bit = true ∨
    (k = .swapDone ∧ ∃ j : TableNo, u.laws[j].pending = true) ∨
    (k = .cueLate ∧ t.rx.lock = .running ∧
      ((∃ c ∈ u.cues, c.due = false ∧ atOrBefore c.block e = true ∧ before c.block e = true) ∨
        ∃ p : Prog, u.progs[p].state ≠ .unused ∧
          ∃ x ∈ u.gains[p].staged, atOrBefore x.boundary e = true ∧ before x.boundary e = true)) ∨
    (k = .guardPressure ∧ ∃ p : Prog, u.gains[p].pressure = false ∧ t.gains[p].pressure = true)
  settling : t.rx.lock ≠ .running → t.cues = u.cues ∧ t.owed = u.owed ∧ t.heldStarts = u.heldStarts ∧ t.gains = u.gains ∧
    ∀ p : Prog, (t.meters[p], t.progs[p]) = takeMark (u.meters[p], u.progs[p])

section
variable {u : State} {r : Receiver} {n : Nat} {e : LinkTime} {entry : Bool} {o : BoundaryOrder} {x : Samples}

theorem boundaryMarked_passFrame (hwords : r.words.length = 1) :
    BoundaryMarked u (((u.started r n).startBoundary e entry o).passFrame x) e := by
  obtain ⟨X, hX⟩ : ∃ X, X = (u.started r n).startBoundary e entry o := ⟨_, rfl⟩
  obtain ⟨Y, hY⟩ : ∃ Y, Y = (u.started r n).boundaryWork e entry := ⟨_, rfl⟩
  have hXY : X = { Y with tx := X.tx, notice := X.notice } := by rw [hX, hY]; exact startBoundary_eq _ e entry o
  have hrx : X.rx = r := by rw [hX]; simp [State.started]
  have hsent : X.tx.sent = 0 := by rw [hX]; rfl
  obtain ⟨hengine, hmark, harbiter, hlaws⟩ := passFrame_op X x
  obtain ⟨howed, hcues, hheld⟩ := passFrame_queues X x
  obtain ⟨-, -, hnotice⟩ := passFrame_of_start hsent (by rw [hrx]; exact hwords) x
  rw [← hX]
  constructor
  case laws =>
    intro k
    have hlaw := boundaryWork_law (u.started r n) e entry k
    rw [← hY] at hlaw
    rw [hlaws, hXY]
    exact hlaw
  case op =>
    intro cancelled hcancelled
    have helig (c : Cue) : (X.passFrame x).eligible c = Y.eligible c := by
      rw [passFrame_eligible, hXY]
      rfl
    simp only [helig] at hcancelled
    have hop := boundaryWork_opCounted (u.started r n) e entry (cancelled := cancelled)
      (hcancelled.trans (and_congr_right fun _ => by rw [newlyEligible_iff, ← hY]; rfl))
    rw [← hY] at hop
    refine ⟨?_, ?_, ?_, fun p => ?_, fun p => ?_⟩
    · rw [hengine, hXY]
      exact hop.engine
    · rw [hmark, hXY]
      exact hop.lawMark
    · rw [harbiter, hXY]
      exact hop.arbiter
    · rw [harbiter, hXY]
      exact hop.rescale p
    · rw [harbiter, hXY]
      exact hop.retune p
  case flags =>
    intro k
    have hflag := boundaryClaims_flag (u.started r n) e entry k
    rw [← hY] at hflag
    have hpressure (p : Prog) : (X.passFrame x).gains[p].pressure = Y.gains[p].pressure := by
      rw [passFrame_pressure, hXY]
    have hlock : (X.passFrame x).rx.lock = r.lock := by rw [← hrx]; simp
    obtain ⟨-, -, -, -, -, -, hset⟩ := startBoundary_notice (u.started r n) e entry o
    simp only [hpressure, hlock]
    rw [hnotice, hX, hset k]
    exact hflag
  case settling =>
    intro hlock
    have hlock : (u.started r n).rx.lock ≠ .running := by
      have hsame : (X.passFrame x).rx = r := by rw [← hrx]; simp
      rw [hsame] at hlock
      exact hlock
    have hlock' : X.rx.lock ≠ .running := by rw [hrx]; exact hlock
    rw [boundaryWork_of_settling hlock] at hY
    have hpart := meterSettling_part (u.started r n).swapBoundary.countBoundary
    rw [← hY] at hpart
    refine ⟨?_, ?_, ?_, ?_, fun p => ?_⟩
    · rw [hcues, hXY, hY]
      simp [State.started]
    · rw [howed, hXY, hY]
      simp [State.started]
    · rw [hheld, hXY, hY]
      simp [State.started]
    · rw [passFrame_gains, weighed_of_settling hlock', hXY, hY]
      simp [State.started]
    · have hprogs : (X.passFrame x).progs = X.progs := by simp
      rw [(passFrame_of_closed (.inl hlock') x).1, hprogs, hXY]
      exact hpart p
end

/-- Settles O52. -/
theorem everyBoundarySwapsCountsAndClaims : Obligations.EveryBoundarySwapsCountsAndClaims := by
  refine ⟨fun s u v hexec hu => ?_, fun s u f e hfollows hwords he hboundary hu => ⟨_, rfl, ?_⟩⟩
  · have hv : s.settleWindows = v := Host.Outcome.next.inj hexec
    subst hu
    subst hv
    refine ⟨settleBeforeBoundary_of_uncounted, fun g hg hcounted => ?_⟩
    rw [settleBeforeBoundary_of_counted hg hcounted]
    refine ⟨fun hop => ?_, fun hop => ?_, fun c hop => ?_, fun expected new a hop => ?_, fun gain snap a hop => ?_,
      fun a hop => ?_, fun q a hop => ?_⟩
    all_goals exact congrArg Host.Outcome.next (onEngine_of hg (by rw [hop]) operationEffects)
  · have hstarted := (frameArrives_superframeStarted hfollows hwords he f).rx
    have hstraps : (s.frameArrives f).straps = s.straps := by simp
    have hslots : (s.frameArrives f).slots = u.slots := by rw [hu]; simp
    have hprofiles : (s.frameArrives f).profiles = u.profiles := by rw [hu]; simp
    have hmarked : BoundaryMarked u (s.frameArrives f) e := by
      obtain ⟨n, o, hstart⟩ := frameArrives_of_boundary hfollows hwords he hboundary f
      rw [hstart, hu]
      exact boundaryMarked_passFrame rfl
    generalize s.frameArrives f = t at hstarted hstraps hslots hprofiles hmarked
    refine ⟨hstraps, hslots, hprofiles, hmarked.laws, fun cancelled hcancelled => ?_, hmarked.flags, fun hlock => ?_⟩
    · have hop := hmarked.op cancelled (hcancelled.trans ?_)
      · exact ⟨hop.engine, hop.lawMark, hop.arbiter, fun p => ⟨hop.rescale p, hop.retune p⟩⟩
      · rw [automaticInFlight_iff]
        exact ⟨fun ⟨g, c, hg, hop, hc⟩ => ⟨⟨g, hg, hop⟩, c, hc⟩, fun ⟨⟨g, hg, hop⟩, c, hc⟩ => ⟨g, c, hg, hop, hc⟩⟩
    · obtain ⟨hcues, howed, hheld, hgains, hparts⟩ := hmarked.settling (by rw [hlock]; decide)
      refine ⟨hcues, howed, hheld, hgains, fun p => ?_⟩
      have hpart := hparts p
      unfold takeMark at hpart
      refine ⟨fun hclear => ?_, fun hmark => ?_⟩
      · rw [if_neg (by rw [hclear]; decide)] at hpart
        exact Prod.mk.inj hpart
      · rw [if_pos (by exact hmark)] at hpart
        exact Prod.mk.inj hpart

end Sys2Proof.Machine
end

/-! ## The search from the top bit, and the rounding of a gained sample (R17) -/

section
namespace Sys2Proof.Machine

/-- The search answers the end of the initial segment that the predicate holds on, where it lies in reach. -/
theorem greatestBelow_eq_min {p : Nat → Bool} {N : Nat} (bits : Nat) (h : ∀ n, p n = true ↔ n ≤ N) :
    greatestBelow p bits 0 = min N (2 ^ bits - 1) := by
  have hpos : 0 < 2 ^ bits := Nat.two_pow_pos bits
  have hreach := greatestBelow_lt p bits 0
  have hle : greatestBelow p bits 0 ≤ N := (h _).mp (greatestBelow_holds p bits 0 ((h 0).mpr (Nat.zero_le N)))
  have hdown : ∀ m n, m ≤ n → p n = true → p m = true := fun m n hmn hn => (h m).mpr (hmn.trans ((h n).mp hn))
  have hge := greatestBelow_greatest p hdown bits 0 (min N (2 ^ bits - 1)) (by omega) ((h _).mpr (min_le_left _ _))
  omega

/-- R17: a magnitude that the gained magnitude's search accepts is at most the product rounded to the nearest integer. -/
theorem gainedMagnitude_accepts_iff (m n : Nat) (g : Int) :
    powLE (2 * n - 1) (2 * m) 2000 g = true ↔ n ≤ ⌊(m : ℝ) * (10 : ℝ) ^ ((g : ℝ) / 2000) + 1 / 2⌋₊ := by
  have hproduct : (0 : ℝ) ≤ m * (10 : ℝ) ^ ((g : ℝ) / 2000) := by positivity
  rw [powLE_iff _ _ _ (by decide), Nat.le_floor_iff (by linarith)]
  push_cast
  cases n with
  | zero => simp only [Nat.mul_zero, Nat.zero_sub, Nat.cast_zero]; constructor <;> intro <;> linarith
  | succ k =>
    rw [show 2 * (k + 1) - 1 = 2 * k + 1 by omega]
    push_cast
    constructor <;> intro h <;> linarith

/-- R17: the gained magnitude is the product rounded to the nearest integer, where that lies in the search's reach. -/
theorem gainedMagnitude_eq (m : Nat) (g : Int) :
    gainedMagnitude m g = min ⌊(m : ℝ) * (10 : ℝ) ^ ((g : ℝ) / 2000) + 1 / 2⌋₊ (2 ^ 24 - 1) :=
  greatestBelow_eq_min 24 fun n => gainedMagnitude_accepts_iff m n g

/-- R17: a gained sample keeps its sign, and its magnitude is the gained magnitude limited to the range of a sample. -/
theorem gainSample_toInt (x : Sample) (g : Int) : (gainSample x g).toInt =
    if x.toInt < 0 then -min (gainedMagnitude x.toInt.natAbs g : Int) 8388608
    else min (gainedMagnitude x.toInt.natAbs g : Int) 8388607 := by
  unfold gainSample fullScale
  split
  · rw [BitVec.toInt_ofInt_eq_self (by decide) (by omega) (by omega)]
    omega
  · rw [BitVec.toInt_ofInt_eq_self (by decide) (by omega) (by omega)]
    omega

/-- Settles O45: the search finds the product rounded, and what lies past its reach lies past the range of a sample. -/
theorem gainedSamplesAreRounded : Obligations.GainedSamplesAreRounded := by
  unfold Obligations.GainedSamplesAreRounded
  intro x g y hy
  have hmagnitude : ((x.toInt.natAbs : Nat) : ℝ) = |(x.toInt : ℝ)| := by rw [Nat.cast_natAbs, Int.cast_abs]
  have hfloor : ((⌊y + 1 / 2⌋₊ : Nat) : Int) = ⌊y + 1 / 2⌋ :=
    Int.natCast_floor_eq_floor (by rw [hy]; positivity)
  rw [gainSample_toInt, gainedMagnitude_eq, hmagnitude, ← hy, ← hfloor]
  split <;> omega

end Sys2Proof.Machine
end

/-! ## The peak guard (R150, R152, R154, R158) -/

section
namespace Sys2Proof.Machine

/-! ### The magnitude weighed -/

theorem foldl_max_eq_or_mem (l : List Nat) (a : Nat) : l.foldl max a = a ∨ l.foldl max a ∈ l := by
  induction l generalizing a with
  | nil => exact Or.inl rfl
  | cons x l ih =>
    rw [List.foldl_cons]
    rcases ih (max a x) with h | h
    · rw [h]
      rcases max_choice a x with hmax | hmax
      · exact Or.inl hmax
      · exact Or.inr (List.mem_cons.mpr (Or.inl hmax))
    · exact Or.inr (List.mem_cons_of_mem x h)

theorem gainedBy_iff (c : SlotEntry) (p : Prog) : c.gainedBy p = true ↔ ∃ w, c = .member p w := by
  cases c <;> simp [SlotEntry.gainedBy]

theorem mem_gainedSlots_iff {s : State} {p : Prog} {i : SlotNo} : i ∈ s.gainedSlots p ↔ ∃ w, s.slots[i] = .member p w := by
  simp only [State.gainedSlots, allSlots, List.mem_filter, List.mem_finRange, true_and, gainedBy_iff]

/-- A largest magnitude above 0 is the magnitude of a sample weighed. -/
theorem largestMagnitude_attained (s : State) (p : Prog) (frames : List Samples) : s.largestMagnitude p frames = 0 ∨
    ∃ f ∈ frames, ∃ i ∈ s.gainedSlots p, s.largestMagnitude p frames = (f[i] : Sample).toInt.natAbs := by
  rcases foldl_max_eq_or_mem (frames.flatMap fun f => (s.gainedSlots p).map fun i => (f[i] : Sample).toInt.natAbs) 0 with h | h
  · exact Or.inl h
  · obtain ⟨f, hf, hmem⟩ := List.mem_flatMap.mp h
    obtain ⟨i, hi, heq⟩ := List.mem_map.mp hmem
    exact Or.inr ⟨f, hf, i, hi, heq.symm⟩

/-! ### The peak level (R150) -/

/-- The level of a magnitude under a gain, in steps of 0.1 dBFS. -/
noncomputable def exactLevel (m : Nat) (c : Int) : ℝ :=
  10 * (20 * Real.logb 10 ((m : ℝ) * (10 : ℝ) ^ ((c : ℝ) / 2000) / 8388608))

theorem levelAtMost_zero (c k : Int) : levelAtMost 0 c k = true := by
  rw [levelAtMost, powLE_iff _ _ _ (by decide)]
  simp only [Nat.cast_zero]
  positivity

theorem levelAtMost_iff {m : Nat} (hm : m ≠ 0) (c k : Int) : levelAtMost m c k = true ↔ exactLevel m c ≤ k := by
  have hmpos : (0 : ℝ) < m := by exact_mod_cast Nat.pos_of_ne_zero hm
  have hgain : (0 : ℝ) < (10 : ℝ) ^ ((c : ℝ) / 2000) := by positivity
  have hsplit : (10 : ℝ) ^ (((10 * k - c : Int) : ℝ) / (2000 : Nat)) * (10 : ℝ) ^ ((c : ℝ) / 2000) = (10 : ℝ) ^ ((k : ℝ) / 200) := by
    rw [← Real.rpow_add (by norm_num)]
    congr 1
    push_cast
    ring
  calc levelAtMost m c k = true ↔ (m : ℝ) ≤ fullScale * (10 : ℝ) ^ (((10 * k - c : Int) : ℝ) / (2000 : Nat)) := by
        rw [levelAtMost, powLE_iff _ _ _ (by decide)]
    _ ↔ (m : ℝ) * (10 : ℝ) ^ ((c : ℝ) / 2000) ≤ 8388608 * (10 : ℝ) ^ ((k : ℝ) / 200) := by
        rw [← hsplit, ← mul_assoc, mul_le_mul_iff_left₀ hgain, fullScale, Nat.cast_ofNat]
    _ ↔ (m : ℝ) * (10 : ℝ) ^ ((c : ℝ) / 2000) / 8388608 ≤ (10 : ℝ) ^ ((k : ℝ) / 200) := by
        rw [div_le_iff₀' (by norm_num)]
    _ ↔ Real.logb 10 ((m : ℝ) * (10 : ℝ) ^ ((c : ℝ) / 2000) / 8388608) ≤ (k : ℝ) / 200 :=
        (Real.logb_le_iff_le_rpow (by norm_num) (by positivity)).symm
    _ ↔ exactLevel m c ≤ k := by
        unfold exactLevel
        constructor <;> intro h <;> linarith

theorem peakLevel_zero (c : Int) : peakLevel 0 c = -1200 := by
  have hsearch : greatestBelow (fun n => n == 0 || !levelAtMost 0 c (-1200 + n - 1)) 13 0 = min 0 (2 ^ 13 - 1) :=
    greatestBelow_eq_min 13 fun n => by simp [levelAtMost_zero]
  rw [peakLevel, hsearch]
  rfl

/-- R150: the peak level is the exact level rounded up, and -120.0 dBFS at least. -/
theorem peakLevel_eq {m : Nat} {c : Int} (hm : m ≠ 0) (hscale : m ≤ fullScale) (hc : c ≤ 2000) :
    peakLevel m c = max (-1200) ⌈exactLevel m c⌉ := by
  have hlevel : ⌈exactLevel m c⌉ ≤ 200 :=
    Int.ceil_le.mpr ((levelAtMost_iff hm c 200).mp (levelAtMost_200 hscale hc))
  have hsearch : greatestBelow (fun n => n == 0 || !levelAtMost m c (-1200 + n - 1)) 13 0 =
      min (⌈exactLevel m c⌉ + 1200).toNat (2 ^ 13 - 1) := by
    refine greatestBelow_eq_min 13 fun n => ?_
    rw [Bool.or_eq_true, beq_iff_eq, Bool.not_eq_true', ← Bool.not_eq_true, levelAtMost_iff hm, ← Int.ceil_le]
    omega
  rw [peakLevel, hsearch]
  omega

/-! ### The guard's obligation -/

/-- Settles O54: the largest magnitude bounds the samples weighed and is one of them, the peak level is the exact level rounded up,
and a boundary's guard follows the need and its window. -/
theorem theGuardMeetsTheNeed : Obligations.TheGuardMeetsTheNeed := by
  unfold Obligations.TheGuardMeetsTheNeed
  refine ⟨fun s p frames weighed hweighed => ⟨fun f i h => ?_, ?_⟩, fun g m ceiling => rfl, fun m c hm _ hc => ⟨?_, ?_⟩, ?_⟩
  case refine_1 =>
    obtain ⟨hf, hmember⟩ := (hweighed f i).mp h
    exact largestMagnitude_le_iff.mp le_rfl f hf i (mem_gainedSlots_iff.mpr hmember)
  case refine_2 =>
    rcases largestMagnitude_attained s p frames with hzero | ⟨f, hf, i, hi, heq⟩
    · exact Or.inl hzero
    · exact Or.inr ⟨f, i, (hweighed f i).mpr ⟨hf, mem_gainedSlots_iff.mp hi⟩, heq⟩
  case refine_3 =>
    rintro rfl
    exact peakLevel_zero c
  case refine_4 => exact fun hne => peakLevel_eq hne hm hc
  case refine_5 =>
    intro q t entry m g after need length count hafter hneed hlength hcount
    subst hafter hneed hlength hcount
    refine ⟨boundaryWork_reduction q t entry m g, boundaryWork_window_of_lt q t entry m g, fun hfull => ?_⟩
    obtain ⟨hzero, hcleared, hpressure⟩ := boundaryWork_window_of_ge q t entry m g hfull
    refine ⟨hzero, hcleared, ?_⟩
    rw [hpressure]
    exact decide_eq_true_iff

end Sys2Proof.Machine
end

/-! ## The loudness of a window (R50) -/

section
namespace Sys2Proof.Machine

/-! ### The sum of block powers -/

/-- The value of a fraction of whole numbers. -/
noncomputable def fractionValue (x : Nat × Nat) : ℝ := (x.1 : ℝ) / x.2

/-- One block's power added to a fraction: the step of `powerSum`. -/
def addBlock (acc : Nat × Nat) (b : BlockPower) : Nat × Nat :=
  if b.frames = 0 then acc else (acc.1 * b.frames + b.sum * acc.2, acc.2 * b.frames)

theorem powerSum_eq_foldl (blocks : List BlockPower) : powerSum blocks = blocks.foldl addBlock (0, 1) := rfl

theorem addBlock_pos {acc : Nat × Nat} {b : BlockPower} (hacc : 0 < acc.2) (hb : 0 < b.frames) : 0 < (addBlock acc b).2 := by
  rw [addBlock, if_neg hb.ne']
  exact Nat.mul_pos hacc hb

theorem fractionValue_addBlock {acc : Nat × Nat} {b : BlockPower} (hacc : 0 < acc.2) (hb : 0 < b.frames) :
    fractionValue (addBlock acc b) = fractionValue acc + (b.sum : ℝ) / b.frames := by
  have hden : (acc.2 : ℝ) ≠ 0 := by exact_mod_cast hacc.ne'
  have hframes : (b.frames : ℝ) ≠ 0 := by exact_mod_cast hb.ne'
  rw [addBlock, if_neg hb.ne', fractionValue, fractionValue]
  push_cast
  field_simp

theorem foldl_addBlock (blocks : List BlockPower) (acc : Nat × Nat) (hacc : 0 < acc.2) (hframes : ∀ b ∈ blocks, 0 < b.frames) :
    0 < (blocks.foldl addBlock acc).2 ∧
    fractionValue (blocks.foldl addBlock acc) = fractionValue acc + (blocks.map fun b => (b.sum : ℝ) / b.frames).sum := by
  induction blocks generalizing acc with
  | nil => exact ⟨hacc, by simp⟩
  | cons b blocks ih =>
    have hb : 0 < b.frames := hframes b List.mem_cons_self
    obtain ⟨hpos, hsum⟩ := ih (addBlock acc b) (addBlock_pos hacc hb) fun c hc => hframes c (List.mem_cons_of_mem b hc)
    refine ⟨hpos, ?_⟩
    rw [List.foldl_cons, hsum, fractionValue_addBlock hacc hb, List.map_cons, List.sum_cons, add_assoc]

theorem powerSum_pos {blocks : List BlockPower} (hframes : ∀ b ∈ blocks, 0 < b.frames) : 0 < (powerSum blocks).2 := by
  rw [powerSum_eq_foldl]
  exact (foldl_addBlock blocks (0, 1) Nat.one_pos hframes).1

/-- The mean of the block powers of a window, from the fraction that the model sums. -/
theorem meanPower_eq {blocks : List BlockPower} (hframes : ∀ b ∈ blocks, 0 < b.frames) :
    (blocks.map fun b => (b.sum : ℝ) / (100 * 2 ^ 46) / b.frames).sum / 75 =
      ((powerSum blocks).1 : ℝ) / ((powerSum blocks).2 * (75 * 100 * 2 ^ 46)) := by
  have hvalue : fractionValue (powerSum blocks) = (blocks.map fun b => (b.sum : ℝ) / b.frames).sum := by
    rw [powerSum_eq_foldl, (foldl_addBlock blocks (0, 1) Nat.one_pos hframes).2, fractionValue]
    simp
  have hunit : (blocks.map fun b => (b.sum : ℝ) / (100 * 2 ^ 46) / b.frames).sum =
      (blocks.map fun b => (b.sum : ℝ) / b.frames).sum / (100 * 2 ^ 46) := by
    rw [div_eq_mul_inv, ← List.sum_map_mul_right]
    congr 2
    funext b
    ring
  rw [hunit, ← hvalue, fractionValue]
  ring

/-! ### The search for the loudness -/

theorem loudnessAtLeast_iff_rpow_le {power : Nat × Nat} (hden : 0 < power.2) (k : Int) : loudnessAtLeast power k = true ↔
    (10 : ℝ) ^ ((2 * (k : ℝ) + 13) / 200) ≤ power.1 / (power.2 * (75 * 100 * 2 ^ 46)) := by
  have hden' : (0 : ℝ) < (power.2 : ℝ) * (75 * 100 * 2 ^ 46) := by
    have : (0 : ℝ) < power.2 := by exact_mod_cast hden
    positivity
  have hstep : (0 : ℝ) < (10 : ℝ) ^ ((2 * (k : ℝ) + 13) / 200) := by positivity
  have hinv : (10 : ℝ) ^ (((-(2 * k + 13) : Int) : ℝ) / (200 : Nat)) = ((10 : ℝ) ^ ((2 * (k : ℝ) + 13) / 200))⁻¹ := by
    rw [← Real.rpow_neg (by norm_num)]
    congr 1
    push_cast
    ring
  rw [loudnessAtLeast, powLE_iff _ _ _ (by decide), hinv, ← div_eq_mul_inv, le_div_iff₀ hstep, le_div_iff₀ hden']
  push_cast
  rw [mul_comm]
  norm_num

/-- R50: no loudness is reached by a power of 0. -/
theorem loudnessAtLeast_eq_false {power : Nat × Nat} (hden : 0 < power.2)
    (hzero : (power.1 : ℝ) / (power.2 * (75 * 100 * 2 ^ 46)) = 0) (k : Int) : loudnessAtLeast power k = false := by
  rw [← Bool.not_eq_true, loudnessAtLeast_iff_rpow_le hden, hzero, not_le]
  positivity

/-- R50: a power above 0 reaches the steps up to its loudness rounded to the nearest step. -/
theorem loudnessAtLeast_iff_le_floor {power : Nat × Nat} {mean : ℝ} (hden : 0 < power.2)
    (hmean : mean = power.1 / (power.2 * (75 * 100 * 2 ^ 46))) (hne : mean ≠ 0) (k : Int) :
    loudnessAtLeast power k = true ↔ k ≤ ⌊10 * (10 * Real.logb 10 mean - 7 / 10) + 1 / 2⌋ := by
  have hpos : 0 < mean := lt_of_le_of_ne (by rw [hmean]; positivity) hne.symm
  rw [loudnessAtLeast_iff_rpow_le hden, ← hmean, ← Real.le_logb_iff_rpow_le (by norm_num) hpos, Int.le_floor]
  constructor <;> intro h <;> linarith

/-- The loudness that the search's answer stands for. -/
def loudnessFound : Nat → Option Int
  | 0 => none
  | n + 1 => some (min 200 ((n : Int) - 700))

theorem windowLoudness_eq (blocks : List BlockPower) : windowLoudness blocks =
    loudnessFound (greatestBelow (fun n => n == 0 || loudnessAtLeast (powerSum blocks) ((n : Int) - 701)) 10 0) := rfl

/-- R50: an answer of `n + 701` steps stands for the loudness `n`; below -70.0 LUFS it is none. -/
theorem loudnessFound_toNat (n : Int) :
    loudnessFound (min (n + 701).toNat (2 ^ 10 - 1)) = if n < -700 then none else some (min 200 n) := by
  generalize hfound : min (n + 701).toNat (2 ^ 10 - 1) = found
  cases found with
  | zero => rw [if_pos (by omega)]; rfl
  | succ j =>
    rw [if_neg (by omega), loudnessFound]
    congr 1
    omega

/-- A window none of whose steps is reached is below the floor. -/
theorem windowLoudness_of_unreached {blocks : List BlockPower} (h : ∀ k, loudnessAtLeast (powerSum blocks) k = false) :
    windowLoudness blocks = none := by
  have hsearch : greatestBelow (fun n => n == 0 || loudnessAtLeast (powerSum blocks) ((n : Int) - 701)) 10 0 =
      min 0 (2 ^ 10 - 1) := greatestBelow_eq_min 10 fun n => by simp [h]
  rw [windowLoudness_eq, hsearch, Nat.zero_min, loudnessFound]

/-- The loudness of a window whose steps up to `n` are reached. -/
theorem windowLoudness_of_reached {blocks : List BlockPower} {n : Int}
    (h : ∀ k, loudnessAtLeast (powerSum blocks) k = true ↔ k ≤ n) :
    windowLoudness blocks = if n < -700 then none else some (min 200 n) := by
  have hsearch : greatestBelow (fun j => j == 0 || loudnessAtLeast (powerSum blocks) ((j : Int) - 701)) 10 0 =
      min (n + 701).toNat (2 ^ 10 - 1) := by
    refine greatestBelow_eq_min 10 fun j => ?_
    rw [Bool.or_eq_true, beq_iff_eq, h]
    omega
  rw [windowLoudness_eq, hsearch, loudnessFound_toNat]

/-- Settles O48: the fraction summed is the mean power, and the search finds its loudness rounded. -/
theorem windowLoudnessIsTheMeanPower : Obligations.WindowLoudnessIsTheMeanPower := by
  unfold Obligations.WindowLoudnessIsTheMeanPower
  intro blocks power _ hframes hpower
  have hden := powerSum_pos hframes
  have hmean := hpower.trans (meanPower_eq hframes)
  refine ⟨fun hzero => ?_, fun n hne hn => ?_⟩
  case refine_1 => exact windowLoudness_of_unreached (loudnessAtLeast_eq_false hden (hmean.symm.trans hzero))
  case refine_2 =>
    subst hn
    exact windowLoudness_of_reached (loudnessAtLeast_iff_le_floor hden hmean hne)

end Sys2Proof.Machine
end

/-! ## Sums of powers of ten judged between whole bounds (R57, R58) -/

section
namespace Sys2Proof.Machine

/-! ### The whole part of a power of ten -/

theorem root10_accepts_iff (digits e x : Nat) :
    x ^ 200 ≤ 10 ^ (e + 200 * digits) ↔ x ≤ ⌊(10 : ℝ) ^ ((e : ℝ) / 200 + digits)⌋₊ := by
  have hexponent : (((e + 200 * digits : Nat) : Int) : ℝ) / (200 : Nat) = (e : ℝ) / 200 + digits := by
    push_cast
    ring
  have hpower := powLE_iff x 1 200 (by decide) ((e + 200 * digits : Nat) : Int)
  rw [hexponent, Nat.cast_one, one_mul] at hpower
  rw [Nat.le_floor_iff (by positivity), ← hpower, ← Int.ofNat_eq_natCast, powLE, one_pow, one_mul, decide_eq_true_eq]

/-- The power of ten lies in the search's reach. -/
theorem floor_rpow_lt (digits e : Nat) : ⌊(10 : ℝ) ^ ((e : ℝ) / 200 + digits)⌋₊ < 2 ^ (4 * (digits + e / 200 + 1)) := by
  have hexponent : (e : ℝ) / 200 + digits ≤ ((digits + e / 200 + 1 : Nat) : ℝ) := by
    have hdiv : ((e : Nat) : ℝ) ≤ ((200 * (e / 200 + 1) : Nat) : ℝ) := by exact_mod_cast (by omega)
    push_cast at hdiv ⊢
    linarith
  have hfloor : ⌊(10 : ℝ) ^ ((e : ℝ) / 200 + digits)⌋₊ ≤ 10 ^ (digits + e / 200 + 1) := by
    refine Nat.floor_le_of_le ?_
    rw [Nat.cast_pow, Nat.cast_ofNat, ← Real.rpow_natCast]
    exact Real.rpow_le_rpow_of_exponent_le (by norm_num) hexponent
  calc ⌊(10 : ℝ) ^ ((e : ℝ) / 200 + digits)⌋₊ ≤ 10 ^ (digits + e / 200 + 1) := hfloor
    _ < 16 ^ (digits + e / 200 + 1) := Nat.pow_lt_pow_left (by decide) (Nat.succ_ne_zero _)
    _ = 2 ^ (4 * (digits + e / 200 + 1)) := by rw [pow_mul, show 2 ^ 4 = 16 from rfl]

theorem root10_eq (digits e : Nat) : root10 digits e = ⌊(10 : ℝ) ^ ((e : ℝ) / 200 + digits)⌋₊ := by
  have hreach := floor_rpow_lt digits e
  rw [root10, greatestBelow_eq_min _ fun x => decide_eq_true_iff.trans (root10_accepts_iff digits e x)]
  omega

/-- The energy of a shifted level at a number of digits. -/
theorem rpow_digits (digits e : Nat) : (10 : ℝ) ^ ((e : ℝ) / 200) * 10 ^ digits = (10 : ℝ) ^ ((e : ℝ) / 200 + digits) := by
  rw [Real.rpow_add (by norm_num), Real.rpow_natCast]

theorem root10_le (digits e : Nat) : (root10 digits e : ℝ) ≤ (10 : ℝ) ^ ((e : ℝ) / 200) * 10 ^ digits := by
  rw [root10_eq, rpow_digits]
  exact Nat.floor_le (by positivity)

theorem le_root10_add_one (digits e : Nat) : (10 : ℝ) ^ ((e : ℝ) / 200) * 10 ^ digits ≤ root10 digits e + 1 := by
  rw [root10_eq, rpow_digits]
  exact (Nat.lt_floor_add_one _).le

/-! ### The whole bounds of a sum -/

/-- The sum of the energies of shifted levels with counts. -/
noncomputable def energySum (terms : List (Nat × Nat)) : ℝ := (terms.map fun t => (t.1 : ℝ) * (10 : ℝ) ^ ((t.2 : ℝ) / 200)).sum

/-- The whole lower bound of a sum of energies at a number of digits. -/
def wholeSum (digits : Nat) (terms : List (Nat × Nat)) : Nat := (terms.map fun t => t.1 * root10 digits t.2).sum

theorem wholeSum_le (digits : Nat) (terms : List (Nat × Nat)) : (wholeSum digits terms : ℝ) ≤ energySum terms * 10 ^ digits := by
  rw [wholeSum, energySum, ← List.sum_map_mul_right, Nat.cast_list_sum, List.map_map]
  refine List.sum_le_sum fun t _ => ?_
  rw [Function.comp_apply, Nat.cast_mul, mul_assoc]
  exact mul_le_mul_of_nonneg_left (root10_le digits t.2) (Nat.cast_nonneg _)

theorem energySum_le (digits : Nat) (terms : List (Nat × Nat)) :
    energySum terms * 10 ^ digits ≤ wholeSum digits terms + ((terms.map (·.1)).sum : Nat) := by
  rw [wholeSum, energySum, ← Nat.cast_add, ← List.sum_map_add, ← List.sum_map_mul_right, Nat.cast_list_sum, List.map_map]
  refine List.sum_le_sum fun t _ => ?_
  calc (t.1 : ℝ) * (10 : ℝ) ^ ((t.2 : ℝ) / 200) * 10 ^ digits
      = t.1 * ((10 : ℝ) ^ ((t.2 : ℝ) / 200) * 10 ^ digits) := mul_assoc _ _ _
    _ ≤ t.1 * (root10 digits t.2 + 1) := mul_le_mul_of_nonneg_left (le_root10_add_one digits t.2) (Nat.cast_nonneg _)
    _ = ((t.1 * root10 digits t.2 + t.1 : Nat) : ℝ) := by push_cast; ring

/-! ### The judgement, digits by digits -/

theorem energyAtLeast_cons (terms : List (Nat × Nat)) (total e d : Nat) (ds : List Nat) :
    energyAtLeast terms total e (d :: ds) =
      if total * (root10 d e + 1) ≤ wholeSum d terms then true
      else if wholeSum d terms + total ≤ total * root10 d e then false
      else energyAtLeast terms total e ds := rfl

/-- A sum judged to reach a level reaches it. -/
theorem energySum_ge_of_energyAtLeast {terms : List (Nat × Nat)} {total e : Nat} {ds : List Nat}
    (h : energyAtLeast terms total e ds = true) : total * (10 : ℝ) ^ ((e : ℝ) / 200) ≤ energySum terms := by
  induction ds with
  | nil => exact absurd h Bool.false_ne_true
  | cons d ds ih =>
    rw [energyAtLeast_cons] at h
    split at h
    next hreached =>
      refine le_of_mul_le_mul_right ?_ (by positivity : (0 : ℝ) < 10 ^ d)
      calc total * (10 : ℝ) ^ ((e : ℝ) / 200) * 10 ^ d
          = total * ((10 : ℝ) ^ ((e : ℝ) / 200) * 10 ^ d) := mul_assoc _ _ _
        _ ≤ total * (root10 d e + 1) := mul_le_mul_of_nonneg_left (le_root10_add_one d e) (Nat.cast_nonneg _)
        _ ≤ wholeSum d terms := by exact_mod_cast hreached
        _ ≤ energySum terms * 10 ^ d := wholeSum_le d terms
    next =>
      split at h
      next => exact absurd h Bool.false_ne_true
      next => exact ih h

/-- A sum judged not to reach a level, with `d` the last number of digits, exceeds it by less than the bounds at `d` can part. -/
theorem energySum_le_of_not_energyAtLeast {terms : List (Nat × Nat)} {total e d : Nat} {ds : List Nat}
    (htotal : total = (terms.map (·.1)).sum) (h : energyAtLeast terms total e (ds ++ [d]) = false) :
    energySum terms ≤ total * (10 : ℝ) ^ ((e : ℝ) / 200) + total * (2 / 10 ^ d) := by
  have hslack : (0 : ℝ) ≤ total * (2 / 10 ^ d) := by positivity
  have hbelow : ∀ c, wholeSum c terms + total ≤ total * root10 c e → energySum terms ≤ total * (10 : ℝ) ^ ((e : ℝ) / 200) := by
    intro c hc
    refine le_of_mul_le_mul_right ?_ (by positivity : (0 : ℝ) < 10 ^ c)
    calc energySum terms * 10 ^ c ≤ wholeSum c terms + total := htotal ▸ energySum_le c terms
      _ ≤ total * root10 c e := by exact_mod_cast hc
      _ ≤ total * ((10 : ℝ) ^ ((e : ℝ) / 200) * 10 ^ c) := mul_le_mul_of_nonneg_left (root10_le c e) (Nat.cast_nonneg _)
      _ = total * (10 : ℝ) ^ ((e : ℝ) / 200) * 10 ^ c := (mul_assoc _ _ _).symm
  induction ds with
  | nil =>
    rw [List.nil_append, energyAtLeast_cons] at h
    split at h
    next => exact absurd h.symm Bool.false_ne_true
    next hunreached =>
      have hwhole : (wholeSum d terms : ℝ) ≤ total * (root10 d e + 1) := by exact_mod_cast (not_le.mp hunreached).le
      refine le_of_mul_le_mul_right ?_ (by positivity : (0 : ℝ) < 10 ^ d)
      calc energySum terms * 10 ^ d ≤ wholeSum d terms + total := htotal ▸ energySum_le d terms
        _ ≤ total * (root10 d e + 1) + total := by linarith
        _ = total * root10 d e + total * 2 := by ring
        _ ≤ total * ((10 : ℝ) ^ ((e : ℝ) / 200) * 10 ^ d) + total * 2 := by
            gcongr
            exact root10_le d e
        _ = (total * (10 : ℝ) ^ ((e : ℝ) / 200) + total * (2 / 10 ^ d)) * 10 ^ d := by field_simp
  | cons c ds ih =>
    rw [List.cons_append, energyAtLeast_cons] at h
    split at h
    next => exact absurd h.symm Bool.false_ne_true
    next =>
      split at h
      next hc => linarith [hbelow c hc]
      next => exact ih h

end Sys2Proof.Machine
end

/-! ## The energy mean found by the search (R57, R58) -/

section
namespace Sys2Proof.Machine

/-! ### Half steps -/

/-- The energy half a step of 0.1 LU below the level of `x` steps. -/
noncomputable def halfStep (x : ℝ) : ℝ := (10 : ℝ) ^ ((2 * x - 1) / 200)

theorem halfStep_pos (x : ℝ) : 0 < halfStep x := Real.rpow_pos_of_pos (by norm_num) _

theorem halfStep_add (x y : ℝ) : halfStep (x + y) = halfStep x * (10 : ℝ) ^ (y / 100) := by
  rw [halfStep, halfStep, ← Real.rpow_add (by norm_num)]
  congr 1
  ring

theorem halfStep_mono {x y : ℝ} (h : x ≤ y) : halfStep x ≤ halfStep y :=
  Real.rpow_le_rpow_of_exponent_le (by norm_num) (by linarith)

theorem halfStep_le_iff {x energy : ℝ} (hpos : 0 < energy) : halfStep x ≤ energy ↔ x ≤ 100 * Real.logb 10 energy + 1 / 2 := by
  rw [halfStep, ← Real.le_logb_iff_rpow_le (by norm_num) hpos]
  constructor <;> intro h <;> linarith

theorem rpow_one_div_pow {x : ℝ} {n : Nat} (hx : x = n) (hn : n ≠ 0) : ((10 : ℝ) ^ ((1 : ℝ) / x)) ^ n = 10 := by
  rw [hx, one_div, Real.rpow_inv_natCast_pow (by norm_num) hn]

/-- A step of 0.1 LU raises the energy by a hundredth at least. -/
theorem hundredth_le_rpow : (101 / 100 : ℝ) ≤ (10 : ℝ) ^ ((1 : ℝ) / 100) := by
  refine le_of_pow_le_pow_left₀ (n := 100) (by decide) (by positivity) ?_
  rw [rpow_one_div_pow (by norm_num : (100 : ℝ) = (100 : Nat)) (by decide)]
  norm_num

/-- Two neighbouring half steps lie apart. -/
theorem halfStep_add_lt {x : ℝ} (hx : 0 ≤ x) : halfStep x + 1 / 200 ≤ halfStep (x + 1) := by
  have hlow : (1 / 2 : ℝ) ≤ halfStep x := by
    have hroot : (10 : ℝ) ^ ((1 : ℝ) / 200) ≤ 2 := by
      refine le_of_pow_le_pow_left₀ (n := 200) (by decide) (by norm_num) ?_
      rw [rpow_one_div_pow (by norm_num : (200 : ℝ) = (200 : Nat)) (by decide)]
      norm_num
    calc (1 / 2 : ℝ) ≤ ((10 : ℝ) ^ ((1 : ℝ) / 200))⁻¹ := by
          rw [one_div]
          exact inv_anti₀ (by positivity) hroot
      _ = (10 : ℝ) ^ (-(1 : ℝ) / 200) := by rw [← Real.rpow_neg (by norm_num)]; congr 1; ring
      _ ≤ halfStep x := Real.rpow_le_rpow_of_exponent_le (by norm_num) (by linarith)
  rw [halfStep_add]
  nlinarith [hundredth_le_rpow]

/-! ### The search -/

/-- What a search that may miss a half step by less than `slack` tells of an energy: it reaches the half step of the answer, and
it exceeds the next by the slack at most. -/
def Bracketed (energy slack : ℝ) (found : Nat) : Prop :=
  (found = 0 ∨ halfStep found ≤ energy) ∧ energy ≤ halfStep (found + 1) + slack

section Search

variable {p : Nat → Bool} {energy slack : ℝ}

/-- A half step that is missed lies above every half step that is reached. -/
theorem accepts_of_le (hslack : slack < 1 / 200) (hreached : ∀ n, n ≠ 0 → p n = true → halfStep n ≤ energy)
    (hmissed : ∀ n, n ≠ 0 → p n = false → energy ≤ halfStep n + slack) (hzero : p 0 = true) (m n : Nat) (hmn : m ≤ n)
    (hn : p n = true) : p m = true := by
  rcases Nat.eq_zero_or_pos m with rfl | hm
  · exact hzero
  · rcases hmn.eq_or_lt with rfl | hlt
    · exact hn
    · by_contra hcontra
      have hcast : (m : ℝ) + 1 ≤ n := by exact_mod_cast hlt
      have hhigh := hreached n (by omega) hn
      have hlow := hmissed m hm.ne' (Bool.eq_false_of_not_eq_true hcontra)
      linarith [halfStep_add_lt (Nat.cast_nonneg (α := ℝ) m), halfStep_mono hcast]

theorem bracketed_greatestBelow (hslack : slack < 1 / 200) (hreached : ∀ n, n ≠ 0 → p n = true → halfStep n ≤ energy)
    (hmissed : ∀ n, n ≠ 0 → p n = false → energy ≤ halfStep n + slack) (hzero : p 0 = true) {bits : Nat} (hbits : bits ≠ 0)
    (hreach : energy < halfStep (2 ^ bits - 1)) : Bracketed energy slack (greatestBelow p bits 0) := by
  have hdown := accepts_of_le hslack hreached hmissed hzero
  have hfound := greatestBelow_holds p bits 0 hzero
  have hlt := greatestBelow_lt p bits 0
  have hgreatest := greatestBelow_greatest p hdown bits 0
  generalize greatestBelow p bits 0 = found at *
  have hlow : found = 0 ∨ halfStep found ≤ energy := or_iff_not_imp_left.mpr fun hne => hreached found hne hfound
  refine ⟨hlow, ?_⟩
  rcases Nat.lt_or_ge (found + 1) (2 ^ bits) with hin | hout
  · have hnext : p (found + 1) = false := Bool.eq_false_of_not_eq_true fun h => by
      have := hgreatest (found + 1) (by omega) h
      omega
    exact_mod_cast hmissed (found + 1) (Nat.succ_ne_zero _) hnext
  · have hlast : (2 ^ bits - 1 : ℝ) ≤ found := by
      have : ((2 ^ bits : Nat) : ℝ) ≤ ((found + 1 : Nat) : ℝ) := by exact_mod_cast hout
      push_cast at this
      linarith
    rcases hlow with hfloor | hhalf
    · have := Nat.one_lt_two_pow hbits
      omega
    · linarith [halfStep_mono hlast]

end Search

/-- The step nearest to a bracketed energy is the answer, or the next one, and this only where the energy lies within the slack of a
half step. -/
theorem Bracketed.nearest {energy slack : ℝ} {found : Nat} (h : Bracketed energy slack found) (hslack : slack < 1 / 200)
    (henergy : 1 ≤ energy) {nearest : Int} (hnearest : nearest = ⌊100 * Real.logb 10 energy + 1 / 2⌋) :
    nearest = found ∨ (nearest = found + 1 ∧ halfStep nearest ≤ energy ∧ energy ≤ halfStep nearest + slack) := by
  obtain ⟨hlow, hhigh⟩ := h
  have hpos : 0 < energy := by linarith
  have hreaches : ∀ k : Int, k ≤ nearest ↔ halfStep k ≤ energy := fun k => by
    rw [hnearest, Int.le_floor, halfStep_le_iff hpos]
  have hge : (found : Int) ≤ nearest := by
    rcases hlow with rfl | hhalf
    · rw [hnearest, Int.le_floor]
      have := Real.logb_nonneg (by norm_num : (1 : ℝ) < 10) henergy
      push_cast
      linarith
    · exact (hreaches found).mpr (by exact_mod_cast hhalf)
  have hlt : ¬((found : Int) + 2 ≤ nearest) := by
    rw [hreaches]
    push_cast
    have hstep := halfStep_add_lt (by positivity : (0 : ℝ) ≤ (found : ℝ) + 1)
    rw [show (found : ℝ) + 1 + 1 = found + 2 by ring] at hstep
    linarith
  rcases hge.eq_or_lt with heq | hgt
  · exact Or.inl heq.symm
  · have hnext : nearest = found + 1 := by omega
    refine Or.inr ⟨hnext, (hreaches nearest).mp le_rfl, ?_⟩
    rw [hnext]
    exact_mod_cast hhigh

end Sys2Proof.Machine
end

/-! ## The values formed at a grant (R57, R58) -/

section
namespace Sys2Proof.Machine

/-! ### The terms of an energy mean -/

/-- Loudness values in half steps above the half step of answer 0, with their counts. -/
def shiftedTerms (terms : List (Nat × Int)) : List (Nat × Nat) := terms.map fun t => (t.1, (2 * t.2 + 1402).toNat)

def totalCount (terms : List (Nat × Int)) : Nat := (terms.map (·.1)).sum

/-- The predicate of the search for an energy mean. -/
def reachesStep (terms : List (Nat × Int)) (n : Nat) : Bool :=
  n == 0 || energyAtLeast (shiftedTerms terms) (totalCount terms) (2 * n - 1) [12, 60, 600, 3200]

theorem energyMean_eq (terms : List (Nat × Int)) : energyMean terms = (greatestBelow (reachesStep terms) 10 0 : Nat) - 701 := rfl

/-- The mean energy of the shifted terms. -/
noncomputable def meanEnergy (terms : List (Nat × Int)) : ℝ := energySum (shiftedTerms terms) / totalCount terms

/-- What the last number of digits may leave undecided. -/
noncomputable def finestSlack : ℝ := 2 / 10 ^ 3200

theorem finestSlack_lt : finestSlack < 1 / 200 := by
  have hpower : (10 : ℝ) ^ 3 ≤ 10 ^ 3200 := pow_le_pow_right₀ (by norm_num) (by decide)
  rw [finestSlack]
  generalize (10 : ℝ) ^ 3200 = digits at hpower
  rw [div_lt_div_iff₀ (by linarith) (by norm_num)]
  linarith

theorem finestSlack_eq : finestSlack = 2 * (10 : ℝ) ^ (-3200 : ℝ) := by
  rw [finestSlack, Real.rpow_neg (by norm_num), div_eq_mul_inv, ← Real.rpow_natCast, Nat.cast_ofNat]

/-- Terms that a ring or a histogram can form: the levels of window loudnesses, and some count above 0. -/
structure Averaged (terms : List (Nat × Int)) : Prop where
  levels : ∀ t ∈ terms, -700 ≤ t.2 ∧ t.2 ≤ 200
  counted : 0 < totalCount terms

theorem totalCount_pos {terms : List (Nat × Int)} {t : Nat × Int} (ht : t ∈ terms) (hcount : t.1 ≠ 0) : 0 < totalCount terms :=
  (Nat.pos_of_ne_zero hcount).trans_le (List.single_le_sum (fun _ _ => Nat.zero_le _) _ (List.mem_map_of_mem ht))

theorem shiftedTerms_total (terms : List (Nat × Int)) : ((shiftedTerms terms).map (·.1)).sum = totalCount terms := by
  rw [shiftedTerms, List.map_map]
  rfl

theorem cast_totalCount (terms : List (Nat × Int)) : (totalCount terms : ℝ) = (terms.map fun x => (x.1 : ℝ)).sum := by
  rw [totalCount, Nat.cast_list_sum, List.map_map]
  rfl

theorem cast_doubled_sub_one {n : Nat} (hn : n ≠ 0) : ((2 * n - 1 : Nat) : ℝ) = 2 * (n : ℝ) - 1 := by
  rw [Nat.cast_sub (by omega)]
  push_cast
  rfl

theorem reachesStep_zero (terms : List (Nat × Int)) : reachesStep terms 0 = true := by
  rw [reachesStep, beq_self_eq_true, Bool.true_or]

/-- The energy of the greatest level lies in the search's reach. -/
theorem greatestLevel_lt_halfStep : (10 : ℝ) ^ ((2 * ((200 : Int) : ℝ) + 1402) / 200) < halfStep (2 ^ 10 - 1) := by
  rw [halfStep]
  exact Real.rpow_lt_rpow_of_exponent_lt (by norm_num) (by norm_num)

/-! ### The bounds of a mean energy -/

section Mean

variable {terms : List (Nat × Int)} (h : Averaged terms)

include h

theorem Averaged.energySum_eq : energySum (shiftedTerms terms) =
    (terms.map fun t => (t.1 : ℝ) * (10 : ℝ) ^ ((t.2 : ℝ) / 100)).sum * (10 : ℝ) ^ ((701 : ℝ) / 100) := by
  rw [energySum, shiftedTerms, List.map_map, ← List.sum_map_mul_right]
  congr 1
  refine List.map_congr_left fun t ht => ?_
  have hlow := (h.levels t ht).1
  have hshift : (((2 * t.2 + 1402).toNat : Nat) : ℝ) = 2 * (t.2 : ℝ) + 1402 := by
    exact_mod_cast Int.toNat_of_nonneg (by omega : 0 ≤ 2 * t.2 + 1402)
  rw [Function.comp_apply, hshift, mul_assoc, ← Real.rpow_add (by norm_num)]
  congr 2
  ring

theorem Averaged.one_le_meanEnergy : 1 ≤ meanEnergy terms := by
  have hcounted : (0 : ℝ) < totalCount terms := by exact_mod_cast h.counted
  rw [meanEnergy, one_le_div hcounted, ← shiftedTerms_total, energySum, Nat.cast_list_sum, List.map_map]
  refine List.sum_le_sum fun t _ => ?_
  exact le_mul_of_one_le_right (Nat.cast_nonneg _) (Real.one_le_rpow (by norm_num) (by positivity))

theorem Averaged.meanEnergy_le {b : Int} (hb : ∀ t ∈ terms, t.2 ≤ b) :
    meanEnergy terms ≤ (10 : ℝ) ^ ((2 * (b : ℝ) + 1402) / 200) := by
  have hcounted : (0 : ℝ) < totalCount terms := by exact_mod_cast h.counted
  rw [meanEnergy, div_le_iff₀' hcounted, h.energySum_eq, cast_totalCount, ← List.sum_map_mul_right, ← List.sum_map_mul_right]
  refine List.sum_le_sum fun t ht => ?_
  have hlevel : (t.2 : ℝ) ≤ b := by exact_mod_cast hb t ht
  rw [mul_assoc, ← Real.rpow_add (by norm_num)]
  refine mul_le_mul_of_nonneg_left (Real.rpow_le_rpow_of_exponent_le (by norm_num) ?_) (Nat.cast_nonneg _)
  linarith

/-! ### The search for a mean energy -/

theorem Averaged.halfStep_le_of_reachesStep {n : Nat} (hn : n ≠ 0) (hreaches : reachesStep terms n = true) :
    halfStep n ≤ meanEnergy terms := by
  have hcounted : (0 : ℝ) < totalCount terms := by exact_mod_cast h.counted
  rw [reachesStep, Bool.or_eq_true, beq_iff_eq, or_iff_right hn] at hreaches
  rw [halfStep, ← cast_doubled_sub_one hn, meanEnergy, le_div_iff₀' hcounted]
  exact energySum_ge_of_energyAtLeast hreaches

theorem Averaged.meanEnergy_le_of_not_reachesStep {n : Nat} (hn : n ≠ 0) (hmissed : reachesStep terms n = false) :
    meanEnergy terms ≤ halfStep n + finestSlack := by
  have hcounted : (0 : ℝ) < totalCount terms := by exact_mod_cast h.counted
  rw [reachesStep, Bool.or_eq_false_iff] at hmissed
  rw [halfStep, ← cast_doubled_sub_one hn, meanEnergy, div_le_iff₀' hcounted, mul_add, finestSlack]
  exact energySum_le_of_not_energyAtLeast (ds := [12, 60, 600]) (d := 3200) (shiftedTerms_total terms).symm hmissed.2

/-- What the search for an energy mean tells of the mean energy. -/
theorem Averaged.bracketed_of_lt {bits : Nat} (hbits : bits ≠ 0) (hreach : meanEnergy terms < halfStep (2 ^ bits - 1)) :
    Bracketed (meanEnergy terms) finestSlack (greatestBelow (reachesStep terms) bits 0) :=
  bracketed_greatestBelow finestSlack_lt (fun _ hn => h.halfStep_le_of_reachesStep hn)
    (fun _ hn => h.meanEnergy_le_of_not_reachesStep hn) (reachesStep_zero terms) hbits hreach

theorem Averaged.bracketed : Bracketed (meanEnergy terms) finestSlack (greatestBelow (reachesStep terms) 10 0) :=
  h.bracketed_of_lt (by decide) ((h.meanEnergy_le fun t ht => (h.levels t ht).2).trans_lt greatestLevel_lt_halfStep)

theorem Averaged.exists_mem : ∃ t, t ∈ terms := by
  refine List.exists_mem_of_ne_nil terms ?_
  rintro rfl
  exact Nat.lt_irrefl 0 h.counted

/-- A step whose half step is reached lies above no bound of the levels. -/
theorem Averaged.found_le {b : Int} (hb : ∀ t ∈ terms, t.2 ≤ b) {found : Nat}
    (hlow : found = 0 ∨ halfStep found ≤ meanEnergy terms) : (found : Int) - 701 ≤ b := by
  rcases hlow with hfloor | hhalf
  · obtain ⟨t, ht⟩ := h.exists_mem
    have := (h.levels t ht).1
    have := hb t ht
    omega
  · rw [halfStep] at hhalf
    have hexponent := (Real.rpow_le_rpow_left_iff (by norm_num : (1 : ℝ) < 10)).mp (hhalf.trans (h.meanEnergy_le hb))
    have hsteps : (2 * (found : ℝ) - 1) ≤ 2 * (b : ℝ) + 1402 := by linarith
    have : 2 * (found : Int) - 1 ≤ 2 * b + 1402 := by exact_mod_cast hsteps
    omega

/-- No energy mean lies above every level. -/
theorem Averaged.energyMean_le {b : Int} (hb : ∀ t ∈ terms, t.2 ≤ b) : energyMean terms ≤ b := by
  rw [energyMean_eq]
  exact h.found_le hb h.bracketed.1

/-- The unshifted mean lies 7.01 decades below the mean energy that is searched for. -/
theorem Averaged.meanEnergy_eq {mean : ℝ}
    (hmean : mean = (terms.map fun x => (x.1 : ℝ) * (10 : ℝ) ^ ((x.2 : ℝ) / 100)).sum / (terms.map fun x => (x.1 : ℝ)).sum) :
    meanEnergy terms = mean * (10 : ℝ) ^ ((701 : ℝ) / 100) := by
  rw [meanEnergy, h.energySum_eq, cast_totalCount, hmean]
  ring

/-- The value the search answers is the energy mean. -/
theorem Averaged.isEnergyMean : IsEnergyMean terms (energyMean terms) := by
  intro mean nearest hmean hnearest
  have henergy := h.one_le_meanEnergy
  have hbracket := h.bracketed
  rw [h.meanEnergy_eq hmean] at henergy hbracket
  rw [energyMean_eq]
  generalize greatestBelow (reachesStep terms) 10 0 = found at hbracket ⊢
  have hscale : (10 : ℝ) ≤ (10 : ℝ) ^ ((701 : ℝ) / 100) :=
    Real.self_le_rpow_of_one_le (by norm_num) (by norm_num)
  have hpos : 0 < mean := pos_of_mul_pos_left (by linarith) (by linarith)
  have hshifted : nearest + 701 = ⌊100 * Real.logb 10 (mean * (10 : ℝ) ^ ((701 : ℝ) / 100)) + 1 / 2⌋ := by
    rw [Real.logb_mul hpos.ne' (by linarith), Real.logb_rpow (by norm_num) (by norm_num), hnearest, ← Int.floor_add_intCast]
    congr 1
    push_cast
    ring
  have hhalf : halfStep ((nearest + 701 : Int) : ℝ) = halfStep nearest * (10 : ℝ) ^ ((701 : ℝ) / 100) := by
    rw [Int.cast_add, halfStep_add, Int.cast_ofNat]
  rcases hbracket.nearest finestSlack_lt henergy hshifted with hsame | ⟨hnext, hlow, hhigh⟩
  · have hn : (found : Int) - 701 = nearest := by omega
    exact ⟨Or.inl hn, fun _ => hn⟩
  · refine ⟨Or.inr (by omega), fun hgap => ?_⟩
    have hapart := hgap nearest
    rw [hhalf] at hlow hhigh
    rw [finestSlack_eq] at hhigh
    have hbelow : halfStep nearest ≤ mean := le_of_mul_le_mul_right hlow (by linarith)
    have hsmall : (0 : ℝ) < (10 : ℝ) ^ (-3200 : ℝ) := by positivity
    rw [← halfStep, abs_of_nonneg (by linarith)] at hapart
    nlinarith

end Mean

/-! ### Bins without a count -/

theorem sum_map_filter_counted {f : Nat × Int → ℝ} (hf : ∀ t, t.1 = 0 → f t = 0) (terms : List (Nat × Int)) :
    ((terms.filter fun t => t.1 != 0).map f).sum = (terms.map f).sum := by
  induction terms with
  | nil => rfl
  | cons t terms ih =>
    rcases eq_or_ne t.1 0 with hzero | hne
    · rw [List.filter_cons_of_neg (by simp [hzero]), ih, List.map_cons, List.sum_cons, hf t hzero, zero_add]
    · rw [List.filter_cons_of_pos (by simp [hne]), List.map_cons, List.sum_cons, ih, List.map_cons, List.sum_cons]

/-- An energy mean weighs no bin without a count. -/
theorem isEnergyMean_filter_counted {terms : List (Nat × Int)} {n : Int} :
    IsEnergyMean (terms.filter fun t => t.1 != 0) n ↔ IsEnergyMean terms n := by
  unfold IsEnergyMean
  rw [sum_map_filter_counted fun t ht => by rw [ht, Nat.cast_zero, zero_mul],
    sum_map_filter_counted fun t ht => by rw [ht, Nat.cast_zero]]

/-- Every bin of a histogram with its centre. -/
def centredBins (histogram : Vector Nat 300) : List (Nat × Int) :=
  (List.finRange 300).map fun k : Fin 300 => (histogram[k], -699 + 2 * ((k : Nat) : Int))

theorem countedBins_eq (histogram : Vector Nat 300) :
    countedBins histogram = (centredBins histogram).filter fun t => t.1 != 0 := by
  rw [countedBins, centredBins]
  congr 1
  refine List.ext_getElem (by simp) fun k _ _ => ?_
  simp [binCentre]

theorem mem_centredBins {histogram : Vector Nat 300} {t : Nat × Int} (ht : t ∈ centredBins histogram) : -700 ≤ t.2 ∧ t.2 ≤ 200 := by
  obtain ⟨k, -, rfl⟩ := List.mem_map.mp ht
  have := k.isLt
  dsimp only
  omega

theorem countedBins_eq_nil {histogram : Vector Nat 300} (h : ∀ k : Fin 300, histogram[k] = 0) : countedBins histogram = [] := by
  rw [countedBins_eq, List.filter_eq_nil_iff]
  intro t ht
  obtain ⟨k, -, rfl⟩ := List.mem_map.mp ht
  simp [h k]

theorem mem_countedBins {histogram : Vector Nat 300} {t : Nat × Int} (ht : t ∈ countedBins histogram) :
    (-700 ≤ t.2 ∧ t.2 ≤ 200) ∧ t.1 ≠ 0 := by
  rw [countedBins_eq, List.mem_filter, bne_iff_ne] at ht
  exact ⟨mem_centredBins ht.1, ht.2⟩

/-- Any selection of counted bins that is not empty can be averaged. -/
theorem averaged_of_countedBins {histogram : Vector Nat 300} {terms : List (Nat × Int)}
    (hsub : ∀ t ∈ terms, t ∈ countedBins histogram) (hne : terms ≠ []) : Averaged terms where
  levels t ht := (mem_countedBins (hsub t ht)).1
  counted := by
    obtain ⟨t, ht⟩ := List.exists_mem_of_ne_nil terms hne
    exact totalCount_pos ht (mem_countedBins (hsub t ht)).2

/-! ### The values -/

theorem shortTermValue_of_empty {ring : List Int} (hempty : ring = []) : shortTermValue ring = none := by
  rw [hempty]
  rfl

theorem integratedValue_of_uncounted {histogram : Vector Nat 300} (hnil : countedBins histogram = []) (offset : Int) :
    integratedValue histogram offset = none := by
  rw [integratedValue, if_pos (by simp [hnil])]

theorem shortTermValue_of_ne_nil {ring : List Int} (hne : ring ≠ []) (hlevels : ∀ l ∈ ring, -700 ≤ l ∧ l ≤ 200) :
    ∃ n, shortTermValue ring = some n ∧ IsEnergyMean (ring.map fun l => (1, l)) n := by
  refine ⟨_, by rw [shortTermValue, if_neg (by simp [hne])], Averaged.isEnergyMean ⟨fun t ht => ?_, ?_⟩⟩
  · obtain ⟨l, hl, rfl⟩ := List.mem_map.mp ht
    exact hlevels l hl
  · obtain ⟨l, hl⟩ := List.exists_mem_of_ne_nil ring hne
    exact totalCount_pos (List.mem_map_of_mem hl) Nat.one_ne_zero

theorem integratedValue_of_counted {histogram : Vector Nat 300} {offset : Int} (hoffset : offset ≤ -10)
    (hcounted : countedBins histogram ≠ []) : ∃ first n, IsEnergyMean (centredBins histogram) first ∧
      integratedValue histogram offset = some n ∧
      IsEnergyMean ((centredBins histogram).filter fun x => decide (first + offset ≤ x.2)) n := by
  have hfirst := averaged_of_countedBins (fun _ ht => ht) hcounted
  have hsecond : (countedBins histogram).filter (fun t => decide (energyMean (countedBins histogram) + offset ≤ t.2)) ≠ [] := by
    intro hnil
    rw [List.filter_eq_nil_iff] at hnil
    have := hfirst.energyMean_le (b := energyMean (countedBins histogram) + offset - 1) fun t ht => by
      have := hnil t ht
      rw [decide_eq_true_eq] at this
      omega
    omega
  refine ⟨energyMean (countedBins histogram), _, ?_, by rw [integratedValue, if_neg (by simp [hcounted])], ?_⟩
  · rw [← isEnergyMean_filter_counted, ← countedBins_eq]
    exact hfirst.isEnergyMean
  · rw [← isEnergyMean_filter_counted, List.filter_comm, ← countedBins_eq]
    exact (averaged_of_countedBins (fun t ht => (List.mem_filter.mp ht).1) hsecond).isEnergyMean

/-- Settles O49: the search brackets the mean energy, bins without a count weigh nothing, and the gate leaves the bins from the first
mean on, so that the second pass has a mean too. -/
theorem measuredValuesAreEnergyMeans : Obligations.MeasuredValuesAreEnergyMeans := by
  unfold Obligations.MeasuredValuesAreEnergyMeans
  rintro s p offset v bins rfl hlevels hoffset rfl
  refine ⟨fun hempty => ?_, fun hne => shortTermValue_of_ne_nil hne hlevels, fun hzero => ?_, fun ⟨k, hk⟩ => ?_, fun htotal => ?_,
    fun htotal => ?_⟩
  case refine_1 => exact shortTermValue_of_empty hempty
  case refine_2 => exact integratedValue_of_uncounted (countedBins_eq_nil hzero) offset
  case refine_3 =>
    refine integratedValue_of_counted hoffset fun hnil => ?_
    rw [countedBins_eq, List.filter_eq_nil_iff] at hnil
    exact hnil _ (List.mem_map_of_mem (List.mem_finRange k)) (bne_iff_ne.mpr hk)
  case refine_4 => exact if_neg (by omega)
  case refine_5 => exact if_pos htotal

end Sys2Proof.Machine
end
